-- ==== Sys2Proof/Word.lean ====
section
/-! DEFINITION. The word types of the core (00_scope.md R2, section 4) and the register number. -/

namespace Sys2Proof

/-- An integer register, the pc or an address: `XW` = 64 bits (00_scope.md R2). -/
abbrev Word := BitVec 64

/-- An instruction word, and every 32-bit control register (00_scope.md R2, 30_encoding.md R60). -/
abbrev IWord := BitVec 32

/-- One byte of memory (20_memory.md R54). -/
abbrev Byte := BitVec 8

/-- The number of an integer or floating-point register: `NXPR` = `NFPR` = 32 (00_scope.md R2). -/
abbrev Reg := Fin 32

end Sys2Proof
end

