-- ==== Sys2Proof/Config.lean ====
section
/-! DEFINITION. The implementation parameters of 00_scope.md R2 whose value the spec decides, the build-time
capabilities as a plain record, and the one open output of the model (the disassembler's text). -/

namespace Sys2Proof

/-- `LANE_CAP`, the lane-array capacity (00_scope.md R2, 92_eei_decisions.md D20). -/
def Config.laneCap : Nat := 2048

/-- `BANK_WIDTH`, the per-lane register-bank width: a construction parameter that nothing changes
(42_vector_lanes.md R144, 92_eei_decisions.md D20). -/
def Config.bankWidth : Nat := 256

/-- `NUM_TRAPS`: codes 0 to 23 are legal (60_exceptions.md R250). -/
def Config.numTraps : Nat := 24

/-- `INT_BASE`: the trap code of interrupt line 0 (60_exceptions.md R250). -/
def Config.intBase : Nat := 16

/-- `IRQ_IPI`: the line of an inter-processor interrupt (60_exceptions.md R262, R264). -/
def Config.irqIpi : Nat := 5

/-- `IRQ_TIMER`: the line of the timer compare (60_exceptions.md R264, R265). -/
def Config.irqTimer : Nat := 7

/-- log2 of `S` = 1024, the size of the dispatch table (00_scope.md R2; unobservable, 40_dispatch.md R86). -/
def Config.slotBits : Nat := 10

/-- DESIGN CHOICE (log entry 3; unsafe): what a byte of memory that nothing has written reads as. The spec leaves the
initial contents to each test (20_memory.md R54). -/
def Config.memFill : Byte := 0

/-- The four build-time capabilities, OPEN in 00_scope.md R2 and 92_eei_decisions.md D9. A field of State that nothing
writes holds them, so that a statement about every state holds for every build (log entry 4). -/
structure Build where
  /-- `HAVE_FPU` -/
  haveFpu : Bool
  /-- `HAVE_RVC` -/
  haveRvc : Bool
  /-- `HAVE_VEC` -/
  haveVec : Bool
  /-- `HAVE_64BIT` -/
  have64 : Bool
  deriving DecidableEq, Repr

/-- The external disassembler: none when none is attached. A free value (93_implementation_defined.md I7: the text is
any value; log entry 15): only the trace text reads it. -/
opaque Config.disassembler : Option (IWord → String)

end Sys2Proof
end

