-- ==== Sys2Proof/Syntax.lean ====
section
/-! DEFINITION. The instructions of the opcode table (spec/opcode_table.json, 30_encoding.md R71), one constructor per
row. Fields an instruction ignores (44_fixture_isa.md R209, R210, R212, R213) are kept, so that a word and its
instruction determine each other. -/

namespace Sys2Proof

inductive Instr where
  /-- `FX.ADDI rd, rs1, imm` (44_fixture_isa.md R200). -/
  | addi (rd rs1 : Reg) (imm : BitVec 12)
  /-- `FX.ADD rd, rs1, rs2` (R201). -/
  | add (rd rs1 rs2 : Reg)
  /-- `FX.SUB rd, rs1, rs2` (R202). -/
  | sub (rd rs1 rs2 : Reg)
  /-- `FX.LW rd, imm(rs1)` (R203). -/
  | lw (rd rs1 : Reg) (imm : BitVec 12)
  /-- `FX.SW rs2, imm(rs1)` (R204). -/
  | sw (rs2 rs1 : Reg) (imm : BitVec 12)
  /-- `FX.BNE rs1, rs2, off`; `off` is a byte offset, always even (R205). -/
  | bne (rs1 rs2 : Reg) (off : BitVec 13)
  /-- `FX.JAL rd, off`; `off` is a byte offset, always even (R206). -/
  | jal (rd : Reg) (off : BitVec 21)
  /-- `FX.ECALL` (R207). -/
  | ecall
  /-- `FX.ERET` (R208). -/
  | eret
  /-- `FX.MTCR cr, rs1`; the field `rd` is ignored (R209). -/
  | mtcr (cr : BitVec 12) (rs1 rd : Reg)
  /-- `FX.MFCR rd, cr`; the field `rs1` is ignored (R210). -/
  | mfcr (rd : Reg) (cr : BitVec 12) (rs1 : Reg)
  /-- `FX.STOP` (R211). -/
  | stop
  /-- `FX.SETVL rd, rs1`; the field `imm` is ignored (R212). -/
  | setvl (rd rs1 : Reg) (imm : BitVec 12)
  /-- `FX.VCFG rs1, rs2`; the field `rd` is ignored (R213). -/
  | vcfg (rs1 rs2 rd : Reg)
  /-- `FX.HALT` (R214). -/
  | halt
  deriving DecidableEq, Repr

end Sys2Proof
end

