-- ==== Sys2Proof/WellFormed.lean ====
section
/-! DEFINITION. The instructions an encoding exists for. Register numbers, control-register numbers and 12-bit
immediates are bounded by their types; a branch or jump offset must be even (30_encoding.md R70: its bit 0 is not
encoded and is 0). -/

namespace Sys2Proof

/-- An offset whose bit 0 the encoding can drop (30_encoding.md R70: "13 bits, even", "21 bits, even"). -/
def evenOffset {n : Nat} (off : BitVec n) : Bool := !off.getLsbD 0

/-- The instruction has an encoding. -/
def wellFormed : Instr → Bool
  | .bne _ _ off => evenOffset off
  | .jal _ off => evenOffset off
  | .addi _ _ _ => true
  | .add _ _ _ => true
  | .sub _ _ _ => true
  | .lw _ _ _ => true
  | .sw _ _ _ => true
  | .ecall => true
  | .eret => true
  | .mtcr _ _ _ => true
  | .mfcr _ _ _ => true
  | .stop => true
  | .setvl _ _ _ => true
  | .vcfg _ _ _ => true
  | .halt => true

end Sys2Proof
end

