-- ==== Sys2Proof/Decode.lean ====
section
/-! DEFINITION. The dispatcher over any opcode table (40_dispatch.md), its slot table, the field positions and
immediates of the fixture formats (30_encoding.md R69, R70), the fixture table (R71), the decoder of a byte stream, and
the encoder. -/

namespace Sys2Proof

/-! ## The dispatcher, over any opcode table -/

/-- One opcode-table entry (30_encoding.md R62, 00_scope.md R1). -/
structure Entry (α : Type) where
  mnemonic : String
  opcode : IWord
  mask : IWord
  handler : α

/-- A word matches an entry when `(w & mask) = opcode` (30_encoding.md R62). -/
def Entry.fits {α : Type} (e : Entry α) (w : IWord) : Bool := (w &&& e.mask) == e.opcode

/-- `Decode(w)`: the handler of the first matching entry in table order; none is `Illegal` (40_dispatch.md R80). -/
def decodeIn {α : Type} (ot : List (Entry α)) (w : IWord) : Option α :=
  (ot.find? (fun e => e.fits w)).map (fun e => e.handler)

/-- `S - 1` for `S = 2^k`: the mask of a slot number. -/
def slotMask (k : Nat) : IWord := BitVec.ofNat 32 (2 ^ k - 1)

/-- The slot of a word: `w & (S-1)` (40_dispatch.md R82). -/
def slotOf (k : Nat) (w : IWord) : Nat := (w &&& slotMask k).toNat

/-- The candidates of slot `i`, in table order (40_dispatch.md R81). -/
def candidates {α : Type} (k : Nat) (ot : List (Entry α)) (i : Nat) : List (Entry α) :=
  ot.filter (fun e => (BitVec.ofNat 32 i &&& e.mask) == (e.opcode &&& e.mask &&& slotMask k))

/-- What a slot is bound to (40_dispatch.md R83). -/
inductive Binding (α : Type) where
  /-- The one candidate of the slot. -/
  | direct (e : Entry α)
  /-- The candidates to scan in order; the empty list makes every word of the slot `Illegal`. -/
  | resolve (es : List (Entry α))

/-- `Bind(i)` (40_dispatch.md R83). -/
def bindSlot {α : Type} (c : List (Entry α)) : Binding α :=
  match c with
  | [e] => .direct e
  | es => .resolve es

/-- The dispatch table, built once from the opcode table (40_dispatch.md R83, R87; 70_reset_and_hazards.md R302). -/
def slotTable {α : Type} (k : Nat) (ot : List (Entry α)) : List (Binding α) :=
  (List.range (2 ^ k)).map (fun i => bindSlot (candidates k ot i))

/-- A slot's answer for a word. A direct slot keeps the full test (40_dispatch.md R83, 90_conflicts.md C3); a resolver
scans its candidates in order (R84). -/
def Binding.select {α : Type} (b : Binding α) (w : IWord) : Option α :=
  match b with
  | .direct e => if e.fits w then some e.handler else none
  | .resolve es => decodeIn es w

/-- `Dispatch(w)` through a slot table (40_dispatch.md R83). -/
def dispatchVia {α : Type} (table : List (Binding α)) (k : Nat) (w : IWord) : Option α :=
  match table[slotOf k w]? with
  | some b => b.select w
  | none => none

/-! ## Fields and immediates of the fixture formats (30_encoding.md R69, R70) -/

/-- The bits of `v` standing at position `pos` and up in a vector of `m` bits, every other bit 0. -/
def put {n : Nat} (m pos : Nat) (v : BitVec n) : BitVec m := v.setWidth m <<< pos

/-- `rd` = `w[11:7]`. -/
def fieldRd (w : IWord) : Reg := (w.extractLsb' 7 5).toFin
/-- `rs1` = `w[19:15]`. -/
def fieldRs1 (w : IWord) : Reg := (w.extractLsb' 15 5).toFin
/-- `rs2` = `w[24:20]`. -/
def fieldRs2 (w : IWord) : Reg := (w.extractLsb' 20 5).toFin
/-- `w[31:20]`: `imm[11:0]` of format I, and the control-register number of format CR. -/
def fieldImmI (w : IWord) : BitVec 12 := w.extractLsb' 20 12
/-- `{w[31:25], w[11:7]}`. -/
def fieldImmS (w : IWord) : BitVec 12 := put 12 5 (w.extractLsb' 25 7) ||| put 12 0 (w.extractLsb' 7 5)
/-- `{w[31], w[7], w[30:25], w[11:8], 0}`: 13 bits, even. -/
def fieldImmB (w : IWord) : BitVec 13 :=
  put 13 12 (w.extractLsb' 31 1) ||| put 13 11 (w.extractLsb' 7 1) ||| put 13 5 (w.extractLsb' 25 6) |||
    put 13 1 (w.extractLsb' 8 4)
/-- `{w[31], w[19:12], w[20], w[30:21], 0}`: 21 bits, even. -/
def fieldImmJ (w : IWord) : BitVec 21 :=
  put 21 20 (w.extractLsb' 31 1) ||| put 21 12 (w.extractLsb' 12 8) ||| put 21 11 (w.extractLsb' 20 1) |||
    put 21 1 (w.extractLsb' 21 10)

/-! ## The fixture table -/

/-- The rows of spec/opcode_table.json in table order (30_encoding.md R71), each with the instruction its fields give. -/
def opTable : List (Entry (IWord → Instr)) :=
  [ ⟨"FX.ADDI", 0x00000013, 0x0000707F, fun w => .addi (fieldRd w) (fieldRs1 w) (fieldImmI w)⟩,
    ⟨"FX.ADD", 0x00000033, 0xFE00707F, fun w => .add (fieldRd w) (fieldRs1 w) (fieldRs2 w)⟩,
    ⟨"FX.SUB", 0x40000033, 0xFE00707F, fun w => .sub (fieldRd w) (fieldRs1 w) (fieldRs2 w)⟩,
    ⟨"FX.LW", 0x00002003, 0x0000707F, fun w => .lw (fieldRd w) (fieldRs1 w) (fieldImmI w)⟩,
    ⟨"FX.SW", 0x00002023, 0x0000707F, fun w => .sw (fieldRs2 w) (fieldRs1 w) (fieldImmS w)⟩,
    ⟨"FX.BNE", 0x00001063, 0x0000707F, fun w => .bne (fieldRs1 w) (fieldRs2 w) (fieldImmB w)⟩,
    ⟨"FX.JAL", 0x0000006F, 0x0000007F, fun w => .jal (fieldRd w) (fieldImmJ w)⟩,
    ⟨"FX.ECALL", 0x00000073, 0xFFFFFFFF, fun _ => .ecall⟩,
    ⟨"FX.ERET", 0x10200073, 0xFFFFFFFF, fun _ => .eret⟩,
    ⟨"FX.MTCR", 0x00001073, 0x0000707F, fun w => .mtcr (fieldImmI w) (fieldRs1 w) (fieldRd w)⟩,
    ⟨"FX.MFCR", 0x00002073, 0x0000707F, fun w => .mfcr (fieldRd w) (fieldImmI w) (fieldRs1 w)⟩,
    ⟨"FX.STOP", 0x0000000B, 0xFFFFFFFF, fun _ => .stop⟩,
    ⟨"FX.SETVL", 0x0000100B, 0x0000707F, fun w => .setvl (fieldRd w) (fieldRs1 w) (fieldImmI w)⟩,
    ⟨"FX.VCFG", 0x0000200B, 0xFE00707F, fun w => .vcfg (fieldRs1 w) (fieldRs2 w) (fieldRd w)⟩,
    ⟨"FX.HALT", 0x0000300B, 0xFFFFFFFF, fun _ => .halt⟩ ]

/-- The instruction a word stands for under the fixture table; none is `Illegal` (40_dispatch.md R80, R89). -/
def decodeWord (w : IWord) : Option Instr := (decodeIn opTable w).map (fun build => build w)

/-! ## Decoding a byte stream -/

/-- Why bytes are no instruction. -/
inductive DecodeReject where
  /-- Fewer than four bytes: no 32-bit word (30_encoding.md R60). -/
  | tooShort
  /-- The word matches no entry (30_encoding.md R65). -/
  | illegal (w : IWord)
  deriving DecidableEq, Repr

/-- The little-endian composition of four bytes, lowest address first (20_memory.md R46, R54). -/
def wordOfBytes (b0 b1 b2 b3 : Byte) : IWord :=
  put 32 24 b3 ||| put 32 16 b2 ||| put 32 8 b1 ||| put 32 0 b0

/-- Byte `i` of a 32-bit word, byte 0 at the lowest address (20_memory.md R46, R54). -/
def byteOfWord (w : IWord) (i : Nat) : Byte := w.extractLsb' (8 * i) 8

/-- The four bytes of a word as memory holds them. -/
def bytesOfWord (w : IWord) : List Byte := [byteOfWord w 0, byteOfWord w 1, byteOfWord w 2, byteOfWord w 3]

/-- Decode the instruction at the head of a byte stream. -/
def decode (bytes : List Byte) : Except DecodeReject (Instr × List Byte) :=
  match bytes with
  | b0 :: b1 :: b2 :: b3 :: rest =>
    match decodeWord (wordOfBytes b0 b1 b2 b3) with
    | some i => .ok (i, rest)
    | none => .error (.illegal (wordOfBytes b0 b1 b2 b3))
  | _ => .error .tooShort

/-- The word whose low `nbits` bits are those of `w` and whose other bits are 0. -/
def wordOfTableBits (nbits w : Nat) : IWord := BitVec.ofNat 32 (w % 2 ^ nbits)

/-- The instruction the decoder reads from the bits of an opcode-table row, laid out as memory holds them. -/
def decodeTableWord (nbits w : Nat) : Option Instr :=
  match decode (bytesOfWord (wordOfTableBits nbits w)) with
  | .ok (i, _) => some i
  | .error _ => none

/-! ## The encoder -/

/-- A register number as its 5-bit field. -/
def regBits (r : Reg) : BitVec 5 := BitVec.ofFin (w := 5) r

/-- Format R (30_encoding.md R69). -/
def encodeR (funct7 : BitVec 7) (rs2 rs1 : Reg) (funct3 : BitVec 3) (rd : Reg) (opcode : BitVec 7) : IWord :=
  put 32 25 funct7 ||| put 32 20 (regBits rs2) ||| put 32 15 (regBits rs1) ||| put 32 12 funct3 |||
    put 32 7 (regBits rd) ||| put 32 0 opcode

/-- Formats I and CR (30_encoding.md R69). -/
def encodeI (imm : BitVec 12) (rs1 : Reg) (funct3 : BitVec 3) (rd : Reg) (opcode : BitVec 7) : IWord :=
  put 32 20 imm ||| put 32 15 (regBits rs1) ||| put 32 12 funct3 ||| put 32 7 (regBits rd) ||| put 32 0 opcode

/-- Format S (30_encoding.md R69): `imm[11:5] rs2 rs1 funct3 imm[4:0] opcode`. -/
def encodeS (imm : BitVec 12) (rs2 rs1 : Reg) (funct3 : BitVec 3) (opcode : BitVec 7) : IWord :=
  put 32 25 (imm.extractLsb' 5 7) ||| put 32 20 (regBits rs2) ||| put 32 15 (regBits rs1) ||| put 32 12 funct3 |||
    put 32 7 (imm.extractLsb' 0 5) ||| put 32 0 opcode

/-- Format B (30_encoding.md R69): `imm[12|10:5] rs2 rs1 funct3 imm[4:1|11] opcode`. -/
def encodeB (off : BitVec 13) (rs2 rs1 : Reg) (funct3 : BitVec 3) (opcode : BitVec 7) : IWord :=
  put 32 31 (off.extractLsb' 12 1) ||| put 32 25 (off.extractLsb' 5 6) ||| put 32 20 (regBits rs2) |||
    put 32 15 (regBits rs1) ||| put 32 12 funct3 ||| put 32 8 (off.extractLsb' 1 4) |||
    put 32 7 (off.extractLsb' 11 1) ||| put 32 0 opcode

/-- Format J (30_encoding.md R69): `imm[20|10:1|11|19:12] rd opcode`. -/
def encodeJ (off : BitVec 21) (rd : Reg) (opcode : BitVec 7) : IWord :=
  put 32 31 (off.extractLsb' 20 1) ||| put 32 21 (off.extractLsb' 1 10) ||| put 32 20 (off.extractLsb' 11 1) |||
    put 32 12 (off.extractLsb' 12 8) ||| put 32 7 (regBits rd) ||| put 32 0 opcode

/-- The word of a well-formed instruction (30_encoding.md R69 to R71). -/
def encode : Instr → IWord
  | .addi rd rs1 imm => encodeI imm rs1 0b000 rd 0x13
  | .add rd rs1 rs2 => encodeR 0x00 rs2 rs1 0b000 rd 0x33
  | .sub rd rs1 rs2 => encodeR 0x20 rs2 rs1 0b000 rd 0x33
  | .lw rd rs1 imm => encodeI imm rs1 0b010 rd 0x03
  | .sw rs2 rs1 imm => encodeS imm rs2 rs1 0b010 0x23
  | .bne rs1 rs2 off => encodeB off rs2 rs1 0b001 0x63
  | .jal rd off => encodeJ off rd 0x6F
  | .ecall => 0x00000073
  | .eret => 0x10200073
  | .mtcr cr rs1 rd => encodeI cr rs1 0b001 rd 0x73
  | .mfcr rd cr rs1 => encodeI cr rs1 0b010 rd 0x73
  | .stop => 0x0000000B
  | .setvl rd rs1 imm => encodeI imm rs1 0b001 rd 0x0B
  | .vcfg rs1 rs2 rd => encodeR 0x00 rs2 rs1 0b010 rd 0x0B
  | .halt => 0x0000300B

end Sys2Proof
end

