-- ==== Sys2Proof/Machine/State.lean ====
section
/-! DEFINITION. The state of the machine as plain data (10_state.md section 1, 20_memory.md R54, 43_step_loop.md R170),
the reasons a step can stop, and the state after reset. -/

namespace Sys2Proof.Machine

/-- Memory as (address, byte) pairs in canonical form (`Memory.wf` in Machine/Ops.lean). -/
abbrev Memory := List Host.Cell

/-- One processor state: of the core, or of a lane (10_state.md section 1). -/
structure Proc where
  /-- Integer registers (R10, R11). -/
  x : Vector Word 32
  /-- Floating-point registers, raw patterns (R12). -/
  f : Vector Word 32
  /-- Program counter (R13). -/
  pc : Word
  /-- Trap vector base (R14). -/
  evec : Word
  /-- Saved pc of the last trap (R14). -/
  epc : Word
  /-- Faulting address of the last memory exception (R14). -/
  badvaddr : Word
  /-- Scratch registers for trap handlers (R14). -/
  k0 : Word
  k1 : Word
  /-- Host-communication registers (R14). -/
  tohost : Word
  fromhost : Word
  /-- Status register (R15, R16). -/
  status : IWord
  /-- Cause register (R19). -/
  cause : IWord
  /-- Floating-point status register (R20). -/
  fsr : IWord
  /-- Instruction-retired counter and timer compare threshold (R21). -/
  count : IWord
  compare : IWord
  /-- Vector configuration (R22). -/
  laneMask : BitVec 8
  laneCount : Nat
  nxprUse : Word
  nfprUse : Word
  vlmax : Word
  vl : Word
  /-- Run flag (R24). -/
  run : Bool
  /-- None for a core, `k` for lane `k` (R25). -/
  laneIndex : Option Nat
  /-- Core index given at construction; a lane records its owner's (R25). -/
  coreId : Nat
  deriving DecidableEq, Repr

/-- What the memory collaborator has been told (20_memory.md R42, R43, R54): the mode last notified, and how many
notifications and translation-cache flushes it has received. -/
structure MemPort where
  vm : Bool
  sup : Bool
  notifies : Nat
  flushes : Nat
  deriving DecidableEq, Repr

/-- The variables of one call of `Step(N, trace)` that live from slot to slot (43_step_loop.md R170). -/
structure Batch where
  /-- `N`, the bound on slots. -/
  limit : Nat
  /-- `i`, the slots consumed. -/
  used : Nat
  /-- The batch is traced. -/
  trace : Bool
  /-- A handler returned `Stop`: the loop is left (R180). -/
  stopped : Bool
  deriving DecidableEq, Repr

/-- One line of the trace output (60_exceptions.md R283, R284). -/
inductive TraceLine where
  /-- A fetched word. -/
  | fetched (core : Nat) (pc : Word) (word : IWord)
  /-- A trap delivery; the code stands for its symbolic name. -/
  | trap (core : Nat) (code : Nat) (pc : Word)
  deriving DecidableEq, Repr

/-- One operation of the harness (00_scope.md R6, 70_reset_and_hazards.md R304, R305). Construction is the function
`construct`; the harness's reads are the functions `crRead` and `fsrRead`. DESIGN CHOICE (log entry 29; unsafe): no
operation stands for what another core that shares the collaborator (20_memory.md R44) does to its last fault address or
to the mode it was last told. -/
inductive HarnessOp where
  /-- `Reset()` (R300). -/
  | reset
  /-- `Step(N, trace)` (R170). -/
  | step (n : Nat) (trace : Bool)
  /-- `DeliverIPI()` (R262). -/
  | deliverIpi
  /-- `Start()` (R263). -/
  | start
  /-- The harness's status write (R110). -/
  | statusWrite (v : Word)
  /-- The harness's floating-point status write (R118). -/
  | fsrWrite (v : Word)
  /-- A control-register write between batches (R104, R305). -/
  | crWrite (n : Nat) (v : Word)
  /-- `AttachLanes()` (R150). -/
  | attachLanes
  /-- A byte the harness stores into the memory it owns (R304). -/
  | memWrite (a : Nat) (b : Byte)
  deriving DecidableEq, Repr

/-- The whole machine: one core, its lanes, the memory collaborator, and where the harness stands. -/
structure State where
  /-- The core's processor state. -/
  core : Proc
  /-- The lane array: absent before attachment, else exactly `LANE_CAP` lanes (10_state.md R23). -/
  lanes : Option (Vector Proc Config.laneCap)
  /-- The bytes of memory (20_memory.md R54). -/
  mem : Memory
  /-- `MEM_SIZE`, given at construction (20_memory.md R44). -/
  memSize : Nat
  /-- The collaborator's last faulting address (20_memory.md R41, R54). -/
  lastFault : Word
  /-- What the collaborator has been told. -/
  port : MemPort
  /-- Build-time capabilities (00_scope.md R2). -/
  build : Build
  /-- The batch in progress; none between batches. -/
  batch : Option Batch
  /-- The trace output so far, oldest line first. -/
  traceOut : List TraceLine
  /-- The harness operations still to come, the next one first (log entry 6). -/
  harness : List HarnessOp
  deriving DecidableEq, Repr

/-- Why the machine stops for good. -/
inductive Fault where
  /-- `Fatal(bad_trap_code, core, code)`, raised by `deliverTrap` for a code outside the legal range (60_exceptions.md
  R255, R258). Safe: the simulation ends there. -/
  | badTrapCode (core : Nat) (code : Nat)
  /-- `Fatal(error_mode, core, code)`, raised by `deliverTrap` when traps are disabled (60_exceptions.md R255, R258,
  R259). Safe: the simulation ends there. -/
  | errorMode (core : Nat) (code : Nat)
  /-- Raised by the harness operation `memWrite` for an address at or above `MEM_SIZE`: no such byte exists
  (20_memory.md R54). Safe. -/
  | noSuchByte (a : Nat)
  deriving DecidableEq, Repr

/-- Why the model gives no meaning. -/
inductive Refusal where
  /-- No meaning yet for the instruction of this mnemonic; only exec's arms may answer it. Safe. -/
  | notModelled (mnemonic : String)
  /-- Raised by every memory access while the mode last notified has virtual memory on: the fixture memory has no
  translation and is refused there (20_memory.md R54). Safe. -/
  | translation
  /-- Raised by the lane multiplexer for an index outside the lane array, or without one (42_vector_lanes.md R151).
  Safe. -/
  | noSuchLane (k : Nat)
  /-- Raised by a second `AttachLanes`: it is called at most once per core (42_vector_lanes.md R150). Safe. -/
  | alreadyAttached
  /-- Raised by `finishAns` when a handler of a table changed a register and returned an outcome other than `Next`: such a
  handler breaks its obligation and is refused (00_scope.md R5, 93_implementation_defined.md U9). Safe. -/
  | handlerObligation
  deriving DecidableEq, Repr

/-- What a step, a meaning or a core service answers. -/
abbrev Out := Host.Outcome State Fault Refusal

/-- A processor state with every register 0 and not runnable (70_reset_and_hazards.md R300). -/
def Proc.zero (coreId : Nat) (laneIndex : Option Nat) : Proc where
  x := Vector.replicate 32 0
  f := Vector.replicate 32 0
  pc := 0
  evec := 0
  epc := 0
  badvaddr := 0
  k0 := 0
  k1 := 0
  tohost := 0
  fromhost := 0
  status := 0
  cause := 0
  fsr := 0
  count := 0
  compare := 0
  laneMask := 0
  laneCount := 0
  nxprUse := 0
  nfprUse := 0
  vlmax := 0
  vl := 0
  run := false
  laneIndex := laneIndex
  coreId := coreId

/-- The machine after `Construct` and its `Reset` (70_reset_and_hazards.md R300, R301). `MEM_SIZE`, `CORE_ID` and the
capabilities are OPEN in the spec; here they have the test vectors' values (DESIGN CHOICE, log entry 2; unsafe).
Memory reads as `Config.memFill` (log entry 3). The collaborator has received the one notification and flush of the
reset. No lanes are attached and the harness has nothing to do (log entries 5 and 6). -/
def State.reset : State where
  core := Proc.zero 0 none
  lanes := none
  mem := []
  memSize := 0x400
  lastFault := 0
  port := { vm := false, sup := false, notifies := 1, flushes := 1 }
  build := { haveFpu := true, haveRvc := true, haveVec := true, have64 := true }
  batch := none
  traceOut := []
  harness := []

end Sys2Proof.Machine
end

