-- ==== Sys2Proof/Machine/Flags.lean ====
section
/-! DEFINITION. The bit fields of the status, cause and floating-point status registers (10_state.md R15 to R20;
41_register_status.md R110 to R113, R118), and the status words trap entry and return compute. -/

namespace Sys2Proof.Machine

/-! ## Status register (10_state.md R15) -/

/-- `SR_WRITABLE`, every bit but the reserved ones (10_state.md R15). -/
def srWritable : IWord := 0x00FF01FF

def statusET (st : IWord) : Bool := st.getLsbD 0
def statusEF (st : IWord) : Bool := st.getLsbD 1
def statusEV (st : IWord) : Bool := st.getLsbD 2
def statusEC (st : IWord) : Bool := st.getLsbD 3
def statusPS (st : IWord) : Bool := st.getLsbD 4
def statusS (st : IWord) : Bool := st.getLsbD 5
def statusU64 (st : IWord) : Bool := st.getLsbD 6
def statusS64 (st : IWord) : Bool := st.getLsbD 7
def statusVM (st : IWord) : Bool := st.getLsbD 8
/-- The interrupt mask, bit `k` for line `k`. -/
def statusIM (st : IWord) : BitVec 8 := st.extractLsb' 16 8

/-- The fields of the status register (41_register_status.md R112). -/
structure StatusFields where
  et : Bool
  ef : Bool
  ev : Bool
  ec : Bool
  ps : Bool
  s : Bool
  u64 : Bool
  s64 : Bool
  vm : Bool
  im : BitVec 8
  deriving DecidableEq, Repr

/-- The fields of a status word (41_register_status.md R112). -/
def decodeStatus (st : IWord) : StatusFields where
  et := statusET st
  ef := statusEF st
  ev := statusEV st
  ec := statusEC st
  ps := statusPS st
  s := statusS st
  u64 := statusU64 st
  s64 := statusS64 st
  vm := statusVM st
  im := statusIM st

/-- A flag at bit `pos`. -/
def flagAt (b : Bool) (pos : Nat) : IWord := put 32 pos (BitVec.ofBool b)

/-- The status word of the fields, before `StatusWrite` masks it (41_register_status.md R112). -/
def encodeStatus (v : StatusFields) : IWord :=
  flagAt v.et 0 ||| flagAt v.ef 1 ||| flagAt v.ev 2 ||| flagAt v.ec 3 ||| flagAt v.ps 4 ||| flagAt v.s 5 |||
    flagAt v.u64 6 ||| flagAt v.s64 7 ||| flagAt v.vm 8 ||| put 32 16 v.im

/-- `s` with the bits of `off` cleared unless the capability is built in. -/
def clearUnless (have? : Bool) (off s : IWord) : IWord := if have? then s else s &&& ~~~off

/-- The value `StatusWrite` stores: reserved bits 0, and the feature bits of an absent capability 0
(41_register_status.md R110, 10_state.md R16). -/
def maskStatus (b : Build) (v : IWord) : IWord :=
  clearUnless b.haveVec 0x04 (clearUnless b.haveRvc 0x08 (clearUnless b.haveFpu 0x02 (clearUnless b.have64 0xC0
    (v &&& srWritable))))

/-- The native register width, a function of status (10_state.md R17). -/
def xprlen (st : IWord) : Nat := if (if statusS st then statusS64 st else statusU64 st) then 64 else 32

/-- The status word of a trap entry: ET := 0, PS := S, S := 1, the rest kept (60_exceptions.md R256). -/
def trapStatus (st : IWord) : IWord :=
  (st &&& ~~~(1#32 <<< 0) &&& ~~~(1#32 <<< 4)) ||| (1#32 <<< 5) ||| flagAt (statusS st) 4

/-- The status word of a trap return: S := PS, ET := 1, the rest kept (60_exceptions.md R275). -/
def returnStatus (st : IWord) : IWord := (st &&& ~~~(1#32 <<< 5)) ||| flagAt (statusPS st) 5 ||| (1#32 <<< 0)

/-- EF and EV, which a lane's creation pre-enables (42_vector_lanes.md R150). -/
def lanePreEnable : IWord := (1#32 <<< 1) ||| (1#32 <<< 2)

/-! ## Cause register (10_state.md R19) -/

/-- `CAUSE_WRITABLE` (10_state.md R19). -/
def causeWritable : IWord := 0x00FF001F

def causeCode (c : IWord) : BitVec 5 := c.extractLsb' 0 5
/-- The pending interrupts, bit `k` for line `k`. -/
def causeIP (c : IWord) : BitVec 8 := c.extractLsb' 16 8

/-- The cause word of the two fields (41_register_status.md R113). -/
def encodeCause (code : BitVec 5) (ip : BitVec 8) : IWord := put 32 0 code ||| put 32 16 ip

/-- The value a write of cause stores (41_register_status.md R107). -/
def maskCause (v : IWord) : IWord := v &&& causeWritable

/-- Line `k` made pending (60_exceptions.md R262, R265). -/
def raiseLine (k : Nat) (c : IWord) : IWord := c ||| (1#32 <<< (16 + k))

/-- Line `k` no longer pending (41_register_status.md R108). -/
def clearLine (k : Nat) (c : IWord) : IWord := c &&& ~~~(1#32 <<< (16 + k))

/-- The cause word a trap entry stores: the code recorded, IP kept (60_exceptions.md R256). -/
def trapCause (code : Nat) (c : IWord) : IWord := (c &&& ~~~0x1F#32) ||| BitVec.ofNat 32 code

/-- The lowest-numbered set bit; none when no bit is set (60_exceptions.md R260, R261). -/
def lowestSet (v : BitVec 8) : Option Nat := (List.range 8).find? (fun k => v.getLsbD k)

/-- The number of set bits (42_vector_lanes.md R143). -/
def popcount (v : BitVec 8) : Nat := (List.range 8).countP (fun k => v.getLsbD k)

/-- The interrupt line a slot takes: the lowest pending and unmasked line, when traps are enabled (60_exceptions.md
R260, R261; 43_step_loop.md R173). -/
def takenLine (status cause : IWord) : Option Nat :=
  if statusET status then lowestSet (causeIP cause &&& statusIM status) else none

/-! ## Floating-point status register (10_state.md R20) -/

/-- `FSR_WRITABLE` (10_state.md R20). -/
def fsrWritable : IWord := 0x000000FF

def fsrNX (v : IWord) : Bool := v.getLsbD 0
def fsrUF (v : IWord) : Bool := v.getLsbD 1
def fsrOF (v : IWord) : Bool := v.getLsbD 2
def fsrDZ (v : IWord) : Bool := v.getLsbD 3
def fsrNV (v : IWord) : Bool := v.getLsbD 4
/-- The five accumulated exception flags together (41_register_status.md R113). -/
def fsrAexc (v : IWord) : BitVec 5 := v.extractLsb' 0 5
/-- The rounding mode; every 3-bit value is storable (10_state.md R20). -/
def fsrRM (v : IWord) : BitVec 3 := v.extractLsb' 5 3

/-- The fsr word of the two fields (41_register_status.md R113). -/
def encodeFsr (aexc : BitVec 5) (rm : BitVec 3) : IWord := put 32 0 aexc ||| put 32 5 rm

/-- The value a write of fsr stores (41_register_status.md R118). -/
def maskFsr (v : IWord) : IWord := v &&& fsrWritable

/-! ## Trap codes (60_exceptions.md R250) -/

def trapFetchMisaligned : Nat := 0
def trapFetchAccess : Nat := 1
def trapIllegal : Nat := 2
def trapPrivileged : Nat := 3
def trapFpDisabled : Nat := 4
def trapSyscall : Nat := 6
def trapBreakpoint : Nat := 7
def trapLoadMisaligned : Nat := 8
def trapStoreMisaligned : Nat := 9
def trapLoadAccess : Nat := 10
def trapStoreAccess : Nat := 11
def trapVectorDisabled : Nat := 12
def trapVectorBank : Nat := 13
def trapVectorIllegal : Nat := 14

/-- The symbolic name of a trap code (60_exceptions.md R250); a code outside the range has none. -/
def trapName (code : Nat) : String :=
  match code with
  | 0 => "instruction_address_misaligned"
  | 1 => "instruction_access_fault"
  | 2 => "illegal_instruction"
  | 3 => "privileged_instruction"
  | 4 => "fp_disabled"
  | 5 => "reserved_5"
  | 6 => "syscall"
  | 7 => "breakpoint"
  | 8 => "load_address_misaligned"
  | 9 => "store_address_misaligned"
  | 10 => "load_access_fault"
  | 11 => "store_access_fault"
  | 12 => "vector_disabled"
  | 13 => "vector_bank"
  | 14 => "vector_illegal_instruction"
  | 15 => "reserved_15"
  | 16 => "interrupt_0"
  | 17 => "interrupt_1"
  | 18 => "interrupt_2"
  | 19 => "interrupt_3"
  | 20 => "interrupt_4"
  | 21 => "interrupt_5"
  | 22 => "interrupt_6"
  | 23 => "interrupt_7"
  | _ => "?"

end Sys2Proof.Machine
end

