-- ==== Sys2Proof/Machine/Operands.lean ====
section
/-! DEFINITION. The operand forms: register-file ports (41_register_status.md R100 to R103), immediates as 64-bit values
(30_encoding.md R70), control-register numbers (41_register_status.md R104), and the load and store address. -/

namespace Sys2Proof.Machine

/-- An operation on the running processor state, lifted to the machine: everything else is kept. -/
def State.onCore (s : State) (g : Proc → Proc) : State := { s with core := g s.core }

/-! ## Register-file ports -/

/-- `XRead(i)`. Register 0 is not hard-wired inside an instruction (41_register_status.md R100, 10_state.md R11). -/
def Proc.xRead (p : Proc) (i : Reg) : Word := p.x[i.val]

/-- `XWrite(i, v)`, register 0 included (41_register_status.md R101). -/
def Proc.xWrite (p : Proc) (i : Reg) (v : Word) : Proc := { p with x := p.x.set i.val v }

/-- `FRead(i)` (41_register_status.md R102). -/
def Proc.fRead (p : Proc) (i : Reg) : Word := p.f[i.val]

/-- `FWrite(i, v)`; no enable is checked (41_register_status.md R103). -/
def Proc.fWrite (p : Proc) (i : Reg) (v : Word) : Proc := { p with f := p.f.set i.val v }

/-- `pc <- target` (10_state.md R13). -/
def Proc.setPc (p : Proc) (target : Word) : Proc := { p with pc := target }

/-- The straight-line successor `pc + 4` (44_fixture_isa.md, fixture conventions). -/
def Proc.pcNext (p : Proc) : Word := p.pc + 4

/-! ## Immediates (30_encoding.md R70) -/

/-- `imm_I`, `imm_S`, `imm_B`, `imm_J`: the encoded immediate sign-extended to 64 bits. -/
def immValue {n : Nat} (imm : BitVec n) : Word := imm.signExtend 64

/-- The address of a load or store: base plus immediate, modulo 2^64 (44_fixture_isa.md R203, R204). -/
def Proc.dataAddr (p : Proc) (base : Reg) (imm : BitVec 12) : Word := p.xRead base + immValue imm

/-- The target of a branch or jump (44_fixture_isa.md R205, R206). -/
def Proc.relTarget {n : Nat} (p : Proc) (off : BitVec n) : Word := p.pc + immValue off

/-- A 32-bit register as the 64-bit port reads it: zero-extended (41_register_status.md R104). -/
def zext64 (v : IWord) : Word := v.setWidth 64

/-- `v[31:0]`. -/
def low32 (v : Word) : IWord := v.setWidth 32

/-- The smaller of two unsigned 64-bit values. -/
def minWord (a b : Word) : Word := if a.toNat ≤ b.toNat then a else b

/-! ## Control-register numbers (41_register_status.md R104) -/

inductive CReg where
  | status | epc | badvaddr | evec | count | compare | cause | coreid | k0 | k1 | vecbank | tohost | fromhost
  deriving DecidableEq, Repr

/-- The register a number names; none is `NoSuchRegister` (41_register_status.md R104). -/
def CReg.ofNumber (n : Nat) : Option CReg :=
  match n with
  | 0 => some .status
  | 1 => some .epc
  | 2 => some .badvaddr
  | 3 => some .evec
  | 4 => some .count
  | 5 => some .compare
  | 6 => some .cause
  | 10 => some .coreid
  | 12 => some .k0
  | 13 => some .k1
  | 18 => some .vecbank
  | 30 => some .tohost
  | 31 => some .fromhost
  | _ => none

end Sys2Proof.Machine
end

