-- ==== Sys2Proof/Machine/Ops.lean ====
section
/-! DEFINITION. The named operations every instruction and every slot is built from: memory bytes and the memory port
(20_memory.md), status and control-register writes (41_register_status.md), vector configuration (42_vector_lanes.md
section 1), taking a trap and returning from one (60_exceptions.md R256, R275), reset (70_reset_and_hazards.md R300),
the timer (60_exceptions.md R265), and the outcome of a handler (43_step_loop.md R170, R177 to R182). -/

namespace Sys2Proof.Machine

/-! ## Memory bytes -/

/-- The canonical form: addresses strictly rising, no listed byte that an unlisted address would read as. -/
abbrev Memory.wf (m : Memory) : Prop :=
  m.Pairwise (fun c d => c.1 < d.1) ∧ ∀ c ∈ m, c.2 ≠ Config.memFill

/-- The byte at an address. -/
def Memory.read (m : Memory) (a : Nat) : Byte :=
  match m with
  | [] => Config.memFill
  | c :: rest => if c.1 = a then c.2 else Memory.read rest a

/-- A listed byte, or nothing where the byte is what an unlisted address reads as. -/
def Memory.cell (a : Nat) (b : Byte) (rest : Memory) : Memory := if b = Config.memFill then rest else (a, b) :: rest

/-- Store one byte, keeping the canonical form. -/
def Memory.write (m : Memory) (a : Nat) (b : Byte) : Memory :=
  match m with
  | [] => Memory.cell a b []
  | c :: rest =>
    if a < c.1 then Memory.cell a b (c :: rest)
    else if a = c.1 then Memory.cell a b rest
    else c :: Memory.write rest a b

/-- The little-endian composition of the `n` bytes from an address up: the byte at the lowest address is the least
significant (20_memory.md R46). -/
def Memory.readLE (m : Memory) (a : Nat) : (n : Nat) → BitVec (8 * n)
  | 0 => 0
  | n + 1 => put (8 * (n + 1)) (8 * n) (m.read (a + n)) ||| put (8 * (n + 1)) 0 (m.readLE a n)

/-- Store the low `8n` bits of a value, the least significant byte at the lowest address (20_memory.md R45, R46). -/
def Memory.writeLE {w : Nat} (m : Memory) (a : Nat) (n : Nat) (v : BitVec w) : Memory :=
  match n with
  | 0 => m
  | n + 1 => (m.writeLE a n v).write (a + n) (v.extractLsb' (8 * n) 8)

/-- The 32-bit word at an address. -/
def Memory.read4 (m : Memory) (a : Nat) : IWord := m.readLE a 4

/-- Store a 32-bit word. -/
def Memory.write4 (m : Memory) (a : Nat) (v : IWord) : Memory := m.writeLE a 4 v

/-! ## The memory port (20_memory.md R40 to R45, R54) -/

/-- What a memory access answers. A fault carries the state in which the collaborator has recorded the address. -/
inductive Access (α : Type) where
  | ok (v : α)
  | fault (code : Nat) (s : State)
  | refused (r : Refusal)

/-- The checks of an access of `n` bytes in the order of 20_memory.md R54: translation refused, then alignment to its
size, then range in unbounded integers. The two codes are those the kind of access reports. R54 gives the checks for
4 bytes; DESIGN CHOICE for any other size (log entry 30): the same ones, since every misaligned access faults (R48). -/
def checkAccess (s : State) (n misaligned outside : Nat) (a : Word) : Access Unit :=
  if s.port.vm then .refused .translation
  else if a.toNat % n ≠ 0 then .fault misaligned { s with lastFault := a }
  else if a.toNat + n > s.memSize then .fault outside { s with lastFault := a }
  else .ok ()

/-- `MemFetch(addr, ec)`: the fixture memory ignores `ec` (20_memory.md R40, R54). -/
def memFetch (s : State) (a : Word) (_ec : Bool) : Access IWord :=
  match checkAccess s 4 trapFetchMisaligned trapFetchAccess a with
  | .ok _ => .ok (s.mem.read4 a.toNat)
  | .fault c t => .fault c t
  | .refused r => .refused r

/-- `MemRead(addr, n)`: an `8n`-bit value or a fault (20_memory.md R45, R54). -/
def memRead (s : State) (a : Word) (n : Nat) : Access (BitVec (8 * n)) :=
  match checkAccess s n trapLoadMisaligned trapLoadAccess a with
  | .ok _ => .ok (s.mem.readLE a.toNat n)
  | .fault c t => .fault c t
  | .refused r => .refused r

/-- `MemWrite(addr, n, v)`: the state after the low `8n` bits of `v` are stored, or a fault (20_memory.md R45, R54). -/
def memWrite {w : Nat} (s : State) (a : Word) (n : Nat) (v : BitVec w) : Access State :=
  match checkAccess s n trapStoreMisaligned trapStoreAccess a with
  | .ok _ => .ok { s with mem := s.mem.writeLE a.toNat n v }
  | .fault c t => .fault c t
  | .refused r => .refused r

/-- `MemFaultAddr()` (20_memory.md R41). -/
def memFaultAddr (s : State) : Word := s.lastFault

/-- `MemNotify(vm, sup)` (20_memory.md R42). -/
def memNotify (vm sup : Bool) (s : State) : State :=
  { s with port := { s.port with vm := vm, sup := sup, notifies := s.port.notifies + 1 } }

/-- `MemFlushTLB()` (20_memory.md R43). -/
def memFlushTlb (s : State) : State := { s with port := { s.port with flushes := s.port.flushes + 1 } }

/-! ## Status and control registers (41_register_status.md) -/

/-- `StatusWrite(v)`: store the masked value, notify the collaborator of VM and S, flush its translation cache, always
(R110, R111). The derived width follows, since it is a function of status (10_state.md R17). -/
def statusWrite (v : IWord) (s : State) : State :=
  let st := maskStatus s.build v
  memFlushTlb (memNotify (statusVM st) (statusS st) (s.onCore (fun p => { p with status := st })))

/-- `RecomputeVlmax()` (42_vector_lanes.md R140). -/
def Proc.recomputeVlmax (p : Proc) : Proc :=
  let u := p.nxprUse.toNat + p.nfprUse.toNat
  let m := if u < 2 then Config.bankWidth * p.laneCount else (Config.bankWidth / (u - 1)) * p.laneCount
  let top : Word := BitVec.ofNat 64 (min m Config.laneCap)
  { p with vlmax := top, vl := minWord p.vl top }

/-- `VCfg(nx, nf)` (42_vector_lanes.md R141). -/
def Proc.vcfg (nx nf : Word) (p : Proc) : Proc := Proc.recomputeVlmax { p with nxprUse := nx, nfprUse := nf }

/-- `SetVl(r)`: the new `vl` is `min(r, vlmax)`, which is also the result (42_vector_lanes.md R142). -/
def Proc.setVl (r : Word) (p : Proc) : Proc := { p with vl := minWord r p.vlmax }

/-- `SetLaneMask(v)` (42_vector_lanes.md R143). -/
def Proc.setLaneMask (v : Word) (p : Proc) : Proc :=
  let mask : BitVec 8 := v.setWidth 8
  Proc.recomputeVlmax { p with laneMask := mask, laneCount := popcount mask }

/-- The read value of a control register (41_register_status.md R104, R105). -/
def Proc.readCReg (p : Proc) (r : CReg) : Word :=
  match r with
  | .status => zext64 p.status
  | .epc => p.epc
  | .badvaddr => p.badvaddr
  | .evec => p.evec
  | .count => zext64 p.count
  | .compare => zext64 p.compare
  | .cause => zext64 p.cause
  | .coreid => BitVec.ofNat 64 p.coreId
  | .k0 => p.k0
  | .k1 => p.k1
  | .vecbank => p.laneMask.setWidth 64
  | .tohost => p.tohost
  | .fromhost => p.fromhost

/-- The write effect of a control register (41_register_status.md R104, R106 to R110). -/
def writeCReg (r : CReg) (v : Word) (s : State) : State :=
  match r with
  | .status => statusWrite (low32 v) s
  | .epc => s.onCore (fun p => { p with epc := v })
  | .badvaddr => s.onCore (fun p => { p with badvaddr := v })
  | .evec => s.onCore (fun p => { p with evec := v })
  | .count => s.onCore (fun p => { p with count := low32 v })
  | .compare => s.onCore (fun p => { p with compare := low32 v, cause := clearLine Config.irqTimer p.cause })
  | .cause => s.onCore (fun p => { p with cause := maskCause (low32 v) })
  | .coreid => s
  | .k0 => s.onCore (fun p => { p with k0 := v })
  | .k1 => s.onCore (fun p => { p with k1 := v })
  | .vecbank => s.onCore (Proc.setLaneMask v)
  | .tohost => s.onCore (fun p => { p with tohost := v })
  | .fromhost => s.onCore (fun p => { p with fromhost := v })

/-- `CRRead(n)`; none is `NoSuchRegister` (41_register_status.md R104, R105). -/
def crRead (n : Nat) (s : State) : Option Word := (CReg.ofNumber n).map (fun r => s.core.readCReg r)

/-- `CRWrite(n, v)`; none is `NoSuchRegister`, and nothing changes (41_register_status.md R104). -/
def crWrite (n : Nat) (v : Word) (s : State) : Option State := (CReg.ofNumber n).map (fun r => writeCReg r v s)

/-- `FSRRead()` (41_register_status.md R116). -/
def fsrRead (s : State) : Word := zext64 s.core.fsr

/-- `FSRWrite(v)`: no notification, no flush (41_register_status.md R118). -/
def fsrWrite (v : Word) (s : State) : State := s.onCore (fun p => { p with fsr := maskFsr (low32 v) })

/-! ## Trace output (60_exceptions.md R283, R284) -/

/-- Whether the batch in progress is traced. -/
def State.tracing (s : State) : Bool :=
  match s.batch with
  | some b => b.trace
  | none => false

/-- `emit` a line when the batch is traced: no other state changes (00_scope.md section 4). -/
def State.emit (s : State) (line : TraceLine) : State :=
  if s.tracing then { s with traceOut := s.traceOut ++ [line] } else s

/-! ## Taking a trap and returning from one -/

/-- The part of `DeliverTrap` that writes registers (60_exceptions.md R256). -/
def enterTrap (code : Nat) (s : State) : State :=
  let t := statusWrite (trapStatus s.core.status) s
  t.onCore (fun p =>
    { p with epc := p.pc, cause := trapCause code p.cause, badvaddr := memFaultAddr t, pc := p.evec })

/-- `DeliverTrap(code, trace)`: range check, enable check, trap line, entry (60_exceptions.md R255, R256). -/
def deliverTrap (code : Nat) (s : State) : Out :=
  if code ≥ Config.numTraps then .fault (.badTrapCode s.core.coreId code)
  else if statusET s.core.status = false then .fault (.errorMode s.core.coreId code)
  else .next (enterTrap code (s.emit (.trap s.core.coreId code s.core.pc)))

/-- `TrapReturn()`: the status part; the address to continue at is `epc` (60_exceptions.md R275). -/
def trapReturn (s : State) : State := statusWrite (returnStatus s.core.status) s

/-! ## Reset (70_reset_and_hazards.md R300) -/

/-- The status a processor state has after its reset: 0 for a core, the pre-enabled value for a lane
(70_reset_and_hazards.md R300, 42_vector_lanes.md R150, R153). -/
def resetStatus (b : Build) (laneIndex : Option Nat) : IWord :=
  match laneIndex with
  | none => maskStatus b 0
  | some _ => maskStatus b lanePreEnable

/-- A processor state reset; its lane index and core index are kept (70_reset_and_hazards.md R300, 10_state.md R25). -/
def Proc.resetTo (b : Build) (p : Proc) : Proc :=
  { Proc.zero p.coreId p.laneIndex with status := resetStatus b p.laneIndex }

/-- `Reset()`: the running processor state and every existing lane; the collaborator is notified and flushed exactly
once (70_reset_and_hazards.md R300, 42_vector_lanes.md R153; log entry 11). -/
def resetAll (s : State) : State :=
  let core := s.core.resetTo s.build
  memFlushTlb (memNotify (statusVM core.status) (statusS core.status)
    { s with core := core, lanes := s.lanes.map (fun ls => ls.map (Proc.resetTo s.build)) })

/-- `Construct(mem, mem_size, core_id)` for a build (70_reset_and_hazards.md R301). -/
def construct (mem : Memory) (memSize coreId : Nat) (build : Build) : State :=
  resetAll { State.reset with
    core := Proc.zero coreId none, mem := mem, memSize := memSize, build := build,
    port := { vm := false, sup := false, notifies := 0, flushes := 0 } }

/-! ## Timer (60_exceptions.md R265) -/

/-- `t`: the slots until the counter next equals compare, 1 to 2^32. -/
def slotsToCompare (count compare : IWord) : Nat := (compare - count - 1).toNat + 1

/-- `CountUpdate(i)` (60_exceptions.md R265). -/
def Proc.countUpdate (i : Nat) (p : Proc) : Proc :=
  { p with
    count := p.count + BitVec.ofNat 32 i
    cause := if i ≥ slotsToCompare p.count p.compare then raiseLine Config.irqTimer p.cause else p.cause }

/-! ## Handler outcomes (00_scope.md R4, 43_step_loop.md R177 to R182) -/

/-- What a handler returns beside its state. -/
inductive HandlerOut where
  | next (npc : Word)
  | fault (code : Nat)
  | stop
  | vtOther
  | halt
  deriving DecidableEq, Repr

/-- The step loop leaves the batch after this slot (43_step_loop.md R180). -/
def stopBatch (s : State) : State := { s with batch := s.batch.map (fun b => { b with stopped := true }) }

/-- `Halt`: reset, and the batch is over with no count update (43_step_loop.md R182). -/
def haltCore (s : State) : State := resetAll { s with batch := none }

/-- Parts (4) and (5) of a slot after the handler: clear `x[0]`, then act on the outcome (43_step_loop.md R170, R177 to
R182). Counting the slot is `endSlot` of Machine/Batch.lean. DESIGN CHOICE (log entry 31): only the `x[0]` of the state
the loop runs on is cleared, not that of a lane the handler wrote. -/
def finish (o : HandlerOut) (s : State) : Out :=
  let t := s.onCore (fun p => p.xWrite 0 0)
  match o with
  | .next npc => .next (t.onCore (fun p => p.setPc npc))
  | .fault code => deliverTrap code t
  | .stop => .next (stopBatch t)
  | .vtOther => .next t
  | .halt => .next (haltCore t)

end Sys2Proof.Machine
end

