-- ==== Sys2Proof/Machine/Arith.lean ====
section
/-! DEFINITION. FX.ADDI, FX.ADD, FX.SUB (44_fixture_isa.md R200 to R202): 64-bit arithmetic modulo 2^64, no flags, no
exceptions. -/

namespace Sys2Proof.Machine

/-- Write a result to `rd` and continue at `pc + 4`. -/
def finishReg (rd : Reg) (v : Word) (s : State) : Out :=
  finish (.next s.core.pcNext) (s.onCore (fun p => p.xWrite rd v))

/-- `x[rd] <- x[rs1] + imm_I(w); return Next(pc + 4)` (R200). -/
def execAddi (rd rs1 : Reg) (imm : BitVec 12) (s : State) : Out :=
  finishReg rd (s.core.xRead rs1 + immValue imm) s

/-- `x[rd] <- x[rs1] + x[rs2]; return Next(pc + 4)` (R201). -/
def execAdd (rd rs1 rs2 : Reg) (s : State) : Out :=
  finishReg rd (s.core.xRead rs1 + s.core.xRead rs2) s

/-- `x[rd] <- x[rs1] - x[rs2]; return Next(pc + 4)` (R202). -/
def execSub (rd rs1 rs2 : Reg) (s : State) : Out :=
  finishReg rd (s.core.xRead rs1 - s.core.xRead rs2) s

end Sys2Proof.Machine
end

