-- ==== Sys2Proof/Machine/Control.lean ====
section
/-! DEFINITION. FX.BNE and FX.JAL (44_fixture_isa.md R205, R206): the target's alignment is checked by the next fetch,
not here. -/

namespace Sys2Proof.Machine

/-- Branch when the registers differ (R205). -/
def execBne (rs1 rs2 : Reg) (off : BitVec 13) (s : State) : Out :=
  finish (.next (if s.core.xRead rs1 ≠ s.core.xRead rs2 then s.core.relTarget off else s.core.pcNext)) s

/-- Link in `rd`, continue at `pc + imm_J(w)`; both are computed from the old pc (R206). -/
def execJal (rd : Reg) (off : BitVec 21) (s : State) : Out :=
  finish (.next (s.core.relTarget off)) (s.onCore (fun p => p.xWrite rd s.core.pcNext))

end Sys2Proof.Machine
end

