-- ==== Sys2Proof/Machine/LoadStore.lean ====
section
/-! DEFINITION. FX.LW and FX.SW (44_fixture_isa.md R203, R204) over the memory port. -/

namespace Sys2Proof.Machine

/-- Load four bytes, sign-extended to 64 bits; a fault of the port is the handler's, and `x[rd]` is not written
(R203). -/
def execLw (rd rs1 : Reg) (imm : BitVec 12) (s : State) : Out :=
  match memRead s (s.core.dataAddr rs1 imm) 4 with
  | .ok v => finishReg rd (v.signExtend 64) s
  | .fault code t => finish (.fault code) t
  | .refused r => .refused r

/-- Store `x[rs2][31:0]`, the low 32 bits; a fault of the port is the handler's, and memory is not written (R204). -/
def execSw (rs2 rs1 : Reg) (imm : BitVec 12) (s : State) : Out :=
  match memWrite s (s.core.dataAddr rs1 imm) 4 (low32 (s.core.xRead rs2)) with
  | .ok t => finish (.next s.core.pcNext) t
  | .fault code t => finish (.fault code) t
  | .refused r => .refused r

end Sys2Proof.Machine
end

