-- ==== Sys2Proof/Machine/System.lean ====
section
/-! DEFINITION. FX.ECALL, FX.ERET, FX.MTCR, FX.MFCR, FX.STOP and FX.HALT (44_fixture_isa.md R207 to R211, R214). -/

namespace Sys2Proof.Machine

/-- `return Fault(6)`: the system call is delivered as a trap (R207). -/
def execEcall (s : State) : Out := finish (.fault trapSyscall) s

/-- Supervisor only; continue at `epc` with the status restored (R208). -/
def execEret (s : State) : Out :=
  if statusS s.core.status = false then finish (.fault trapPrivileged) s
  else finish (.next s.core.epc) (trapReturn s)

/-- Supervisor only; an unknown number is an illegal instruction; the field `rd` is ignored (R209). -/
def execMtcr (cr : BitVec 12) (rs1 _rd : Reg) (s : State) : Out :=
  if statusS s.core.status = false then finish (.fault trapPrivileged) s
  else
    match crWrite cr.toNat (s.core.xRead rs1) s with
    | none => finish (.fault trapIllegal) s
    | some t => finish (.next s.core.pcNext) t

/-- Supervisor only; an unknown number is an illegal instruction; the field `rs1` is ignored (R210). -/
def execMfcr (rd : Reg) (cr : BitVec 12) (_rs1 : Reg) (s : State) : Out :=
  if statusS s.core.status = false then finish (.fault trapPrivileged) s
  else
    match crRead cr.toNat s with
    | none => finish (.fault trapIllegal) s
    | some v => finishReg rd v s

/-- `return Stop` (R211). -/
def execStop (s : State) : Out := finish .stop s

/-- `return Halt` (R214). -/
def execHalt (s : State) : Out := finish .halt s

end Sys2Proof.Machine
end

