-- ==== Sys2Proof/Machine/VectorConfig.lean ====
section
/-! DEFINITION. FX.SETVL and FX.VCFG (44_fixture_isa.md R212, R213). -/

namespace Sys2Proof.Machine

/-- `vector_disabled` when EV = 0; else `x[rd] <- SetVl(x[rs1])`; the field `imm` is ignored (R212). -/
def execSetvl (rd rs1 : Reg) (_imm : BitVec 12) (s : State) : Out :=
  if statusEV s.core.status = false then finish (.fault trapVectorDisabled) s
  else
    let t := s.onCore (Proc.setVl (s.core.xRead rs1))
    finishReg rd t.core.vl t

/-- `vector_disabled` when EV = 0; else `VCfg(x[rs1], x[rs2])`; the field `rd` is ignored (R213). -/
def execVcfg (rs1 rs2 _rd : Reg) (s : State) : Out :=
  if statusEV s.core.status = false then finish (.fault trapVectorDisabled) s
  else finish (.next s.core.pcNext) (s.onCore (Proc.vcfg (s.core.xRead rs1) (s.core.xRead rs2)))

end Sys2Proof.Machine
end

