-- ==== Sys2Proof/Machine/Dispatch.lean ====
section
/-! DEFINITION. One arm per instruction of the opcode table: the handler, the clear of register 0 and the outcome
(43_step_loop.md R170 parts 4 and 5). -/

namespace Sys2Proof.Machine

def exec (i : Instr) (s : State) : Host.Outcome State Fault Refusal :=
  match i with
  | .addi rd rs1 imm => Sys2Proof.Machine.execAddi rd rs1 imm s
  | .add rd rs1 rs2 => Sys2Proof.Machine.execAdd rd rs1 rs2 s
  | .sub rd rs1 rs2 => Sys2Proof.Machine.execSub rd rs1 rs2 s
  | .lw rd rs1 imm => Sys2Proof.Machine.execLw rd rs1 imm s
  | .sw rs2 rs1 imm => Sys2Proof.Machine.execSw rs2 rs1 imm s
  | .bne rs1 rs2 off => Sys2Proof.Machine.execBne rs1 rs2 off s
  | .jal rd off => Sys2Proof.Machine.execJal rd off s
  | .ecall => Sys2Proof.Machine.execEcall s
  | .eret => Sys2Proof.Machine.execEret s
  | .mtcr cr rs1 rd => Sys2Proof.Machine.execMtcr cr rs1 rd s
  | .mfcr rd cr rs1 => Sys2Proof.Machine.execMfcr rd cr rs1 s
  | .stop => Sys2Proof.Machine.execStop s
  | .setvl rd rs1 imm => Sys2Proof.Machine.execSetvl rd rs1 imm s
  | .vcfg rs1 rs2 rd => Sys2Proof.Machine.execVcfg rs1 rs2 rd s
  | .halt => Sys2Proof.Machine.execHalt s

end Sys2Proof.Machine
end

