-- ==== Sys2Proof/Machine/Batch.lean ====
section
/-! DEFINITION. The step loop over any memory collaborator and opcode table (43_step_loop.md): one slot, the end of a
batch, a whole batch; and the lane state multiplexer with what runs on a lane (42_vector_lanes.md section 2). -/

namespace Sys2Proof.Machine

/-! ## What a processor is built over: the memory collaborator and the opcode table -/

/-- What dispatch gives the step loop for a word: the handler with its outcome acted on (parts 4 and 5 of a slot), or
none for `Illegal` (40_dispatch.md R89). -/
abbrev Dispatcher := IWord → Option (State → Out)

/-- The accesses of a memory collaborator (00_scope.md R7; 20_memory.md R40, R45): a parameter of the block
(93_implementation_defined.md U3). What it answers to `MemFaultAddr` it leaves in `lastFault` (R41), and what it has been
told is in `port` (R42, R43), so any of its answers may depend on both. -/
structure Collaborator where
  /-- `MemFetch(addr, ec)` -/
  fetch : State → Word → Bool → Access IWord
  /-- `MemRead(addr, n)` -/
  read : State → Word → (n : Nat) → Access (BitVec (8 * n))
  /-- `MemWrite(addr, n, v)`, of the low `8n` bits of `v` -/
  write : State → Word → (n : Nat) → BitVec (8 * n) → Access State

/-- The fixture memory (20_memory.md R54). -/
def fixtureMemory : Collaborator where
  fetch := memFetch
  read := memRead
  write := fun s a n v => memWrite s a n v

/-- What every processor state of the system shares: the collaborator and the dispatch table (42_vector_lanes.md R154,
10_state.md R26). -/
structure System where
  memory : Collaborator
  dispatch : Dispatcher

/-- What a handler answers: a state and its outcome (00_scope.md R4); or the `Fatal` of a lane it ran (42_vector_lanes.md
R152), which leaves every loop at once (43_step_loop.md R170), or what the collaborator or the lane multiplexer refused. -/
abbrev HandlerAns := Host.Outcome (State × HandlerOut) Fault Refusal

/-- A handler of an opcode table, from the word and the state, its pc included (00_scope.md R4). The system is the
services it may use: the memory port (R7), and what a lane runs with in `RunLane` (42_vector_lanes.md R152). -/
abbrev Handler := System → IWord → State → HandlerAns

/-- The obligation of a handler that does not return `Next`: every register is left unchanged (00_scope.md R5), from the
state `s` it was given to the state `t` it returns. DEDUCED (log entry 28): the registers are those of 10_state.md section
1, the lane array's among them, but for the `x[0]` that is cleared whatever the outcome (43_step_loop.md R177). -/
abbrev registersKept (s t : State) : Prop := t.core.xWrite 0 0 = s.core.xWrite 0 0 ∧ t.lanes = s.lanes

/-- Act on what a handler given the state `s` answers. A handler that breaks its obligation is refused
(93_implementation_defined.md U9, 92_eei_decisions.md D13); there is no rollback, so otherwise the state it returned is
the one used (00_scope.md R5). -/
def finishAns (s : State) (ans : HandlerAns) : Out :=
  match ans with
  | .next (t, .next npc) => finish (.next npc) t
  | .next (t, o) => if registersKept s t then finish o t else .refused .handlerObligation
  | .fault r => .fault r
  | .refused r => .refused r

/-- A handler's use of the memory port: on a fault of the collaborator it returns that fault (20_memory.md R45), and what
the collaborator refuses ends the run. -/
def answerAccess {α : Type} (a : Access α) (k : α → HandlerAns) : HandlerAns :=
  match a with
  | .ok v => k v
  | .fault code t => .next (t, .fault code)
  | .refused r => .refused r

/-- A handler's use of a lane: it goes on with the state the lane operation leaves (42_vector_lanes.md R151, R152). -/
def answerRun (o : Out) (k : State → HandlerAns) : HandlerAns :=
  match o with
  | .next t => k t
  | .fault r => .fault r
  | .refused r => .refused r

/-- The dispatcher of an opcode table whose handlers use the services `sys` (00_scope.md R1, 40_dispatch.md R80). -/
def dispatchWith (sys : System) (ot : List (Entry Handler)) : Dispatcher := fun w =>
  (decodeIn ot w).map (fun h s => finishAns s (h sys w s))

/-- The system a lane runs with: the shared collaborator and table. A handler on a lane never gets to run a lane, since a
lane has no lane array (93_implementation_defined.md U14), so its services dispatch nothing. -/
def laneSystem (c : Collaborator) (ot : List (Entry Handler)) : System where
  memory := c
  dispatch := dispatchWith { memory := c, dispatch := fun _ => none } ot

/-- The system of an arbitrary collaborator and opcode table. -/
def tableSystem (c : Collaborator) (ot : List (Entry Handler)) : System where
  memory := c
  dispatch := dispatchWith (laneSystem c ot) ot

/-- The dispatcher of the fixture table: the decoded instruction's meaning. -/
def fixtureDispatcher : Dispatcher := fun w => (decodeWord w).map exec

/-- The system of this machine: the fixture memory and the fixture table. -/
def fixtureSystem : System where
  memory := fixtureMemory
  dispatch := fixtureDispatcher

/-! ## One slot -/

/-- The batch has no slot left: `i < N` fails, or the loop was left (43_step_loop.md R170, R180). -/
def Batch.over (b : Batch) : Bool := b.stopped || decide (b.limit ≤ b.used)

/-- Count a slot and, when that was the batch's last, end it with `CountUpdate(i)` (43_step_loop.md R170, R183, R184).
After `Halt` no batch is open and nothing is counted (R182). -/
def endSlot (s : State) : State :=
  match s.batch with
  | none => s
  | some b =>
    let b' := { b with used := b.used + 1 }
    if b'.over then { s.onCore (Proc.countUpdate b'.used) with batch := none }
    else { s with batch := some b' }

/-- The end of a slot after what it did. -/
def afterSlot (o : Out) : Out :=
  match o with
  | .next s => .next (endSlot s)
  | .fault r => .fault r
  | .refused r => .refused r

/-- Part (3) of a slot: dispatch a fetched word; an illegal word is trap code 2 (43_step_loop.md R175, R176). -/
def runWord (d : Dispatcher) (w : IWord) (s : State) : Out :=
  let t := s.emit (.fetched s.core.coreId s.core.pc w)
  match d w with
  | some h => h t
  | none => deliverTrap trapIllegal t

/-- Parts (1) and (2) of a slot: interrupt check, then fetch (43_step_loop.md R173, R174). -/
def slotBody (sys : System) (s : State) : Out :=
  match takenLine s.core.status s.core.cause with
  | some k => deliverTrap (Config.intBase + k) s
  | none =>
    match sys.memory.fetch s s.core.pc (statusEC s.core.status) with
    | .ok w => runWord sys.dispatch w s
    | .fault code t => deliverTrap code t
    | .refused r => .refused r

/-- One iteration of the step loop (43_step_loop.md R170, R172). -/
def slotWith (sys : System) (s : State) : Out := afterSlot (slotBody sys s)

/-- One slot of this machine. -/
def slot (s : State) : Out := slotWith fixtureSystem s

/-! ## A batch -/

/-- Enter `Step(N, trace)`: nothing when not runnable (43_step_loop.md R171); with `N = 0` only `CountUpdate(0)`
(R172); else the loop begins. -/
def openBatch (n : Nat) (trace : Bool) (s : State) : State :=
  if s.core.run = false then s
  else if n = 0 then s.onCore (Proc.countUpdate 0)
  else { s with batch := some { limit := n, used := 0, trace := trace, stopped := false } }

/-- Run slots until the batch is over, at most `fuel` of them. -/
def runSlots (sys : System) (fuel : Nat) (s : State) : Out :=
  match fuel with
  | 0 => .next s
  | fuel + 1 =>
    match s.batch with
    | none => .next s
    | some _ =>
      match slotWith sys s with
      | .next t => runSlots sys fuel t
      | .fault r => .fault r
      | .refused r => .refused r

/-- `Step(N, trace)` as one call (43_step_loop.md R170): a batch has at most `N` slots (R172). -/
def stepCall (sys : System) (n : Nat) (trace : Bool) (s : State) : Out := runSlots sys n (openBatch n trace s)

/-! ## Lanes (42_vector_lanes.md section 2) -/

/-- A lane as its creation leaves it (R150). -/
def laneCreated (b : Build) (coreId k : Nat) : Proc :=
  { Proc.zero coreId (some k) with status := maskStatus b lanePreEnable }

/-- `AttachLanes()`: every lane is created by a reset and one more status write, so the collaborator receives two
notifications and two flushes for each lane, each of user mode without virtual memory (R150; log entry 12). -/
def attachLanes (s : State) : Out :=
  match s.lanes with
  | some _ => .refused .alreadyAttached
  | none => .next { s with
      lanes := some (Vector.ofFn (fun k : Fin Config.laneCap => laneCreated s.build s.core.coreId k.val))
      port := { vm := false, sup := false, notifies := s.port.notifies + 2 * Config.laneCap,
                flushes := s.port.flushes + 2 * Config.laneCap } }

/-- `Lane(k)`, the lane state multiplexer (R151). -/
def laneAt (k : Nat) (s : State) : Option Proc :=
  match s.lanes with
  | none => none
  | some ls => ls[k]?

/-- The machine seen by lane `k`: the lane's processor state runs, with no lane array of its own, over the owner's
memory subsystem; no batch of the lane is open (R150, R151, R154). -/
def focusLane (lane : Proc) (s : State) : State := { s with core := lane, lanes := none, batch := none }

/-- Back to the owner `s` after its lane `k` was left at `t`: the lane's state goes into the array; memory, the
collaborator and the trace are shared (R154). DESIGN CHOICE (log entry 31): an `x[0]` that the owner's handler wrote
through the lane's port stays in the array. -/
def unfocusLane (k : Nat) (s t : State) : State :=
  { t with core := s.core, lanes := s.lanes.map (fun ls => ls.setIfInBounds k t.core), batch := s.batch }

/-- Run an operation on lane `k` through the multiplexer (R151). -/
def onLane (k : Nat) (op : State → Out) (s : State) : Out :=
  match laneAt k s with
  | none => .refused (.noSuchLane k)
  | some lane =>
    match op (focusLane lane s) with
    | .next t => .next (unfocusLane k s t)
    | .fault r => .fault r
    | .refused r => .refused r

/-- What `RunLane` does on the selected lane: start at `a`, run a batch of at most `n` slots, stop being runnable
(R152). -/
def laneBatch (sys : System) (a : Word) (n : Nat) (trace : Bool) (s : State) : Out :=
  match stepCall sys n trace (s.onCore (fun p => { p with pc := a, run := true })) with
  | .next t => .next (t.onCore (fun p => { p with run := false }))
  | .fault r => .fault r
  | .refused r => .refused r

/-- `RunLane(k, a, n)` (R152); the lane's batch is traced when the owner's is. -/
def runLane (sys : System) (k : Nat) (a : Word) (n : Nat) (s : State) : Out :=
  onLane k (laneBatch sys a n s.tracing) s

end Sys2Proof.Machine
end

