-- ==== Sys2Proof/Machine/Harness.lean ====
section
/-! DEFINITION. The harness's operations between batches (00_scope.md R6; 60_exceptions.md R262, R263;
70_reset_and_hazards.md R300, R304, R305, R316), and the text of a trace line (60_exceptions.md R283, R284). -/

namespace Sys2Proof.Machine

/-- `DeliverIPI()` (60_exceptions.md R262). -/
def deliverIpi (s : State) : State :=
  s.onCore (fun p => { p with cause := raiseLine Config.irqIpi p.cause, run := true })

/-- `Start()` (60_exceptions.md R263). -/
def start (s : State) : State := s.onCore (fun p => { p with run := true })

/-- A byte the harness stores into the memory it owns (70_reset_and_hazards.md R304). -/
def harnessMemWrite (a : Nat) (b : Byte) (s : State) : Out :=
  if a < s.memSize then .next { s with mem := s.mem.write a b } else .fault (.noSuchByte a)

/-- One harness operation. A control-register number the port does not know changes nothing (41_register_status.md
R104). -/
def harnessOp (op : HarnessOp) (s : State) : Out :=
  match op with
  | .reset => .next (resetAll s)
  | .step n trace => .next (openBatch n trace s)
  | .deliverIpi => .next (deliverIpi s)
  | .start => .next (start s)
  | .statusWrite v => .next (statusWrite (low32 v) s)
  | .fsrWrite v => .next (fsrWrite v s)
  | .crWrite n v => .next ((crWrite n v s).getD s)
  | .attachLanes => attachLanes s
  | .memWrite a b => harnessMemWrite a b s

/-- Between batches: the harness's next operation, or nothing when it has none (70_reset_and_hazards.md R316,
60_exceptions.md R285; log entry 6). -/
def harnessStep (s : State) : Out :=
  match s.harness with
  | [] => .next s
  | op :: rest => harnessOp op { s with harness := rest }

/-! ## Placing one instruction for the next slot (log entry 17) -/

/-- Store a word where the next slot fetches, and open a batch of one slot for a runnable core when none is open. -/
def placeWord (w : IWord) (s : State) : State :=
  { s.onCore (fun p => { p with run := true }) with
    mem := s.mem.write4 s.core.pc.toNat w
    batch := some (s.batch.getD { limit := 1, used := 0, trace := false, stopped := false }) }

/-! ## Trace text -/

/-- One lowercase hexadecimal digit. -/
def hexDigit (n : Nat) : Char := Nat.digitChar (n % 16)

/-- `n` as exactly `digits` hexadecimal digits, most significant first. -/
def hexFixed (digits n : Nat) : List Char :=
  match digits with
  | 0 => []
  | digits + 1 => hexFixed digits (n / 16) ++ [hexDigit n]

/-- `%3d`: decimal, padded with spaces on the left to three places. -/
def dec3 (n : Nat) : List Char :=
  let ds := Nat.toDigits 10 n
  List.replicate (3 - ds.length) ' ' ++ ds

/-- The disassembler's text, or the placeholder (60_exceptions.md R283). -/
def disassembly (w : IWord) : String :=
  match Config.disassembler with
  | some text => text w
  | none => "?"

/-- `core %3d: 0x%016x (0x%08x) %s` and `core %3d: trap %s, pc 0x%016x` (60_exceptions.md R283, R284). -/
def TraceLine.render (line : TraceLine) : String :=
  match line with
  | .fetched core pc word =>
    "core " ++ String.ofList (dec3 core) ++ ": 0x" ++ String.ofList (hexFixed 16 pc.toNat) ++ " (0x" ++
      String.ofList (hexFixed 8 word.toNat) ++ ") " ++ disassembly word
  | .trap core code pc =>
    "core " ++ String.ofList (dec3 core) ++ ": trap " ++ trapName code ++ ", pc 0x" ++
      String.ofList (hexFixed 16 pc.toNat)

end Sys2Proof.Machine
end

