-- ==== Sys2Proof/Machine/Step.lean ====
section
/-! DEFINITION. One step of the machine: a slot of the batch in progress, or between batches the harness's next
operation (00_scope.md R8, 43_step_loop.md R172, 70_reset_and_hazards.md R316). -/

namespace Sys2Proof.Machine

def step (s : State) : Host.Outcome State Fault Refusal :=
  match s.batch with
  | some _ => slot s
  | none => harnessStep s

/-- The state with an instruction of the table placed where the next step fetches it, the core runnable and a batch
open, as a load from outside and a `Step` call would leave it (log entry 17). -/
def State.withFetchWord (s : State) (nbits w : Nat) : State := placeWord (wordOfTableBits nbits w) s

end Sys2Proof.Machine
end

