-- ==== Sys2Proof/Safety.lean ====
section
/-! DEFINITION. What claims about the machine are stated in: the invariant of a processor state and of the machine, and
the frames that say what an instruction leaves unchanged. -/

namespace Sys2Proof.Machine

/-- What holds of every processor state at an instruction boundary: register 0 is zero (10_state.md R11), the reserved
bits of status, cause and fsr and the feature bits of absent capabilities are 0 (R16, R19, R20), the lane count counts
the lane mask, and `vl <= vlmax <= LANE_CAP` (R22). -/
abbrev Proc.ok (b : Build) (p : Proc) : Prop :=
  p.xRead 0 = 0 ∧ maskStatus b p.status = p.status ∧ maskCause p.cause = p.cause ∧ maskFsr p.fsr = p.fsr ∧
    p.laneCount = popcount p.laneMask ∧ p.vl.toNat ≤ p.vlmax.toNat ∧ p.vlmax.toNat ≤ Config.laneCap

/-- What holds of lane `k` of a core between slots: its processor state is sound, it knows its index and its owner's
core index (10_state.md R25), and it is not running (42_vector_lanes.md R152). -/
abbrev laneOk (b : Build) (coreId k : Nat) (lane : Proc) : Prop :=
  lane.ok b ∧ lane.laneIndex = some k ∧ lane.coreId = coreId ∧ lane.run = false

/-- What holds of an open batch: a slot is left, and the core is runnable (43_step_loop.md R170, R171). -/
abbrev batchOk (run : Bool) (b : Batch) : Prop := b.used < b.limit ∧ b.stopped = false ∧ run = true

/-- The invariant of the machine: memory is canonical and inside `MEM_SIZE`, the core and its lanes are sound, and an
open batch has a slot left. -/
abbrev State.inv (s : State) : Prop :=
  s.mem.wf ∧ (∀ c ∈ s.mem, c.1 < s.memSize) ∧ s.core.ok s.build ∧ s.core.laneIndex = none ∧
    (∀ ls ∈ s.lanes, ∀ k : Fin Config.laneCap, laneOk s.build s.core.coreId k.val ls[k.val]) ∧
    (∀ b ∈ s.batch, batchOk s.core.run b)

/-- Frame: nothing but the integer registers and the pc of the running processor state differs. -/
def keepsAllButXPc (s t : State) : Prop :=
  t = { s with core := { s.core with x := t.core.x, pc := t.core.pc } }

/-- Frame: every byte of memory reads as before. -/
def keepsMemory (s t : State) : Prop := ∀ a, t.mem.read a = s.mem.read a

/-- The integer registers of `t` are those of `s` but for register 0, which is zero (43_step_loop.md R177). -/
def keepsX (s t : State) : Prop := ∀ r : Reg, t.core.xRead r = if r = 0 then 0 else s.core.xRead r

/-- The integer registers of `t` are those of `s` with `v` in `rd`, and register 0 zero (43_step_loop.md R177: a write to
register 0 is discarded at the end of the slot). -/
def writesX (rd : Reg) (v : Word) (s t : State) : Prop :=
  ∀ r : Reg, t.core.xRead r = if r = 0 then 0 else if r = rd then v else s.core.xRead r

/-- An access of `n` bytes at `a` is one the fixture memory performs (20_memory.md R48, R54). -/
abbrev accessFits (n : Nat) (s : State) (a : Word) : Prop :=
  s.port.vm = false ∧ a.toNat % n = 0 ∧ a.toNat + n ≤ s.memSize

/-- A 4-byte access at `a` is one the fixture memory performs (20_memory.md R54). -/
abbrev accessOk (s : State) (a : Word) : Prop := accessFits 4 s a

/-- `t` is `s` just after the trap `code` was taken with `MemFaultAddr()` answering `bad` (60_exceptions.md R256): the
saved registers, the pc, the recorded code with IP kept, the status with ET := 0, PS := S, S := 1, and nothing else of
the processor state but the integer registers (said separately) differs. -/
def trapEntered (code : Nat) (bad : Word) (s t : State) : Prop :=
  t.core.pc = s.core.evec ∧ t.core.epc = s.core.pc ∧ t.core.badvaddr = bad ∧
    (causeCode t.core.cause).toNat = code ∧ causeIP t.core.cause = causeIP s.core.cause ∧
    t.core.status = maskStatus s.build (trapStatus s.core.status) ∧
    t.core = { s.core with x := t.core.x, pc := t.core.pc, epc := t.core.epc, badvaddr := t.core.badvaddr,
                           cause := t.core.cause, status := t.core.status }

/-- Frame: outside the processor state and the collaborator's records only the trace output may differ. -/
def keepsMachine (s t : State) : Prop :=
  t.lanes = s.lanes ∧ t.mem = s.mem ∧ t.memSize = s.memSize ∧ t.build = s.build ∧ t.batch = s.batch ∧
    t.harness = s.harness

end Sys2Proof.Machine
end

