-- ==== Sys2Proof/Certificates/Slice0/Obligations.lean ====
section
/-! DEFINITION. The statements about the machine, for the provers. Each says which rules of spec/ it formalises. -/

open Sys2Proof Sys2Proof.Machine

/-! ## Encoding and dispatch -/

/-- Words written out in spec/95_test_vectors.md, and the examples of R201 and R202 in spec/44_fixture_isa.md, decode to
the instructions named there (sanity). -/
def Obligations.SpecWordsDecode : Prop :=
  decodeTableWord 32 0xFFF00293 = some (.addi 5 0 (-1)) ∧
  decodeTableWord 32 0x002081B3 = some (.add 3 1 2) ∧
  decodeTableWord 32 0x402081B3 = some (.sub 3 1 2) ∧
  decodeTableWord 32 0x0040A183 = some (.lw 3 1 4) ∧
  decodeTableWord 32 0x0020A223 = some (.sw 2 1 4) ∧
  decodeTableWord 32 0xFE009CE3 = some (.bne 1 0 (-8)) ∧
  decodeTableWord 32 0x010000EF = some (.jal 1 16) ∧
  decodeTableWord 32 0x00131073 = some (.mtcr 1 6 0) ∧
  decodeTableWord 32 0x00A022F3 = some (.mfcr 5 10 0) ∧
  decodeTableWord 32 0x0001920B = some (.setvl 4 3 0) ∧
  decodeTableWord 32 0x0021200B = some (.vcfg 2 2 0) ∧
  decodeTableWord 32 0x00000063 = none ∧
  decodeTableWord 32 0x00000000 = none

/-- R69 to R71: the bytes of an encoded well-formed instruction, followed by any bytes, decode to that instruction, and
the bytes that follow are left. -/
def Obligations.DecodeOfEncodeIsIdentity : Prop :=
  ∀ (i : Instr) (rest : List Byte), wellFormed i = true → decode (bytesOfWord (encode i) ++ rest) = .ok (i, rest)

/-- R69 to R71, the other direction: a word that decodes is the encoding of what it decodes to, which is well formed;
so no bit of a word is dropped. -/
def Obligations.EncodeOfDecodeIsIdentity : Prop :=
  ∀ (w : IWord) (i : Instr), decodeWord w = some i → wellFormed i = true ∧ encode i = w

/-- R80, R81, R83: dispatch through the slot table equals first-match decoding, for every table, every power of two
`S = 2^k` and every word; the spec infers this in R85, which it marks as derived. -/
def Obligations.SlotDispatchEqualsDecode : Prop :=
  ∀ (α : Type) (k : Nat) (ot : List (Entry α)) (w : IWord), dispatchVia (slotTable k ot) k w = decodeIn ot w

/-- R62, R64, R80: the handler selected is that of the first entry with `(w & mask) = opcode` in table order, and there
is none exactly when no entry matches. -/
def Obligations.FirstMatchingEntrySelected : Prop :=
  ∀ (α : Type) (ot : List (Entry α)) (w : IWord),
    (∀ h : α, decodeIn ot w = some h ↔
      ∃ (before : List (Entry α)) (e : Entry α) (after : List (Entry α)), ot = before ++ e :: after ∧
        w &&& e.mask = e.opcode ∧ (∀ d ∈ before, w &&& d.mask ≠ d.opcode) ∧ e.handler = h) ∧
    (decodeIn ot w = none ↔ ∀ e ∈ ot, w &&& e.mask ≠ e.opcode)

/-! ## The step loop -/

/-- R170, R173, R174, R175: with a batch open, no interrupt to take and a fetch the memory performs, the bytes at the
pc decode to `i` and the step is `exec i` on the state with the trace line emitted when the batch is traced, followed by
counting the slot (`afterSlot`). -/
def Obligations.StepRunsDecodedInstruction : Prop :=
  ∀ (s : State) (b : Batch) (i : Instr), s.batch = some b → takenLine s.core.status s.core.cause = none →
    accessOk s s.core.pc →
    decode [s.mem.read s.core.pc.toNat, s.mem.read (s.core.pc.toNat + 1), s.mem.read (s.core.pc.toNat + 2),
      s.mem.read (s.core.pc.toNat + 3)] = .ok (i, []) →
    (b.trace = false → step s = afterSlot (exec i s)) ∧
    (b.trace = true → step s = afterSlot (exec i
      { s with traceOut := s.traceOut ++ [.fetched s.core.coreId s.core.pc (s.mem.read4 s.core.pc.toNat)] }))

/-- R176: an illegal word delivers trap code 2 with `epc = pc`; no integer register is touched. With traps disabled the
delivery is fatal (R258). -/
def Obligations.IllegalWordTraps : Prop :=
  ∀ (s : State) (b : Batch), s.batch = some b → takenLine s.core.status s.core.cause = none → accessOk s s.core.pc →
    decodeWord (s.mem.read4 s.core.pc.toNat) = none →
    (statusET s.core.status = true → ∃ t, step s = .next (endSlot t) ∧ trapEntered 2 s.lastFault s t ∧
      t.core.x = s.core.x ∧ keepsMachine s t) ∧
    (statusET s.core.status = false → step s = .fault (.errorMode s.core.coreId 2))

/-- R260, R261: an enabled pending interrupt is taken at the start of the slot, before any fetch, lowest line first; its
IP bit is not cleared; and no line is taken when none is pending and unmasked or traps are disabled. -/
def Obligations.LowestEnabledInterruptTaken : Prop :=
  (∀ (s : State) (b : Batch) (k : Nat), s.batch = some b → statusET s.core.status = true → k < 8 →
    (causeIP s.core.cause &&& statusIM s.core.status).getLsbD k = true →
    (∀ j < k, (causeIP s.core.cause &&& statusIM s.core.status).getLsbD j = false) →
    ∃ t, step s = .next (endSlot t) ∧ trapEntered (16 + k) s.lastFault s t ∧ t.core.x = s.core.x ∧
      keepsMachine s t) ∧
  (∀ status cause : IWord,
    takenLine status cause = none ↔ (statusET status = false ∨ causeIP cause &&& statusIM status = 0))

/-- R174 with the fixture memory of R54: a misaligned pc delivers trap 0, an aligned pc past the end of memory trap 1,
in the same slot; `badvaddr` is the pc and no handler runs. -/
def Obligations.FetchFaultTraps : Prop :=
  ∀ (s : State) (b : Batch), s.batch = some b → takenLine s.core.status s.core.cause = none → s.port.vm = false →
    statusET s.core.status = true →
    (s.core.pc.toNat % 4 ≠ 0 → ∃ t, step s = .next (endSlot t) ∧ trapEntered 0 s.core.pc s t ∧
      t.core.x = s.core.x ∧ t.lastFault = s.core.pc ∧ keepsMachine s t) ∧
    (s.core.pc.toNat % 4 = 0 → s.memSize < s.core.pc.toNat + 4 → ∃ t, step s = .next (endSlot t) ∧
      trapEntered 1 s.core.pc s t ∧ t.core.x = s.core.x ∧ t.lastFault = s.core.pc ∧ keepsMachine s t)

/-- R171: `Step` on a processor that is not runnable changes nothing, whatever the opcode table and the
memory. -/
def Obligations.NotRunnableStepDoesNothing : Prop :=
  ∀ (sys : System) (n : Nat) (trace : Bool) (s : State), s.batch = none → s.core.run = false →
    stepCall sys n trace s = .next s

/-- R170: a batch of no slots changes nothing, `CountUpdate(0)` included; the spec infers this in R172, which it marks
as derived. -/
def Obligations.EmptyBatchChangesNothing : Prop :=
  ∀ (sys : System) (trace : Bool) (s : State), stepCall sys 0 trace s = .next s

/-- R170, R183: whatever a slot did (interrupt, fault, illegal word, handler), it is counted once; the batch goes on
while slots are left; a batch that is over is ended by `CountUpdate` of all its slots; after `Halt` nothing is counted.
The fields that hold `N` and `i` are the model's (log entry 7). -/
def Obligations.EverySlotCountsOnce : Prop :=
  ∀ (s u : State) (b : Batch), s.batch = some b → slotBody fixtureSystem s = .next u →
    (u.batch = none ∧ step s = .next u) ∨
    (u.batch = some b ∧ b.stopped = false ∧ b.used + 1 < b.limit ∧
      step s = .next { u with batch := some { b with used := b.used + 1 } }) ∨
    ((u.batch = some { b with stopped := true } ∨ (u.batch = some b ∧ b.limit ≤ b.used + 1)) ∧
      step s = .next { u.onCore (Proc.countUpdate (b.used + 1)) with batch := none })

/-- R170: a batch of at most `N` slots is over when the call returns; the spec infers the bound in R172, which it marks
as derived. -/
def Obligations.BatchEndsWithinItsBound : Prop :=
  ∀ (n : Nat) (trace : Bool) (s t : State), s.batch = none → stepCall fixtureSystem n trace s = .next t →
    t.batch = none

/-- R8, R170: running the machine step by step, one slot a step, gives what the step loop run as one call gives. That
the harness's queue is empty, and that a step then does nothing between batches, is the model's (log entry 6). -/
def Obligations.StepwiseRunIsTheStepLoop : Prop :=
  ∀ (n : Nat) (s : State), s.harness = [] →
    Host.Core.run Sys2Proof.core n s = runSlots fixtureSystem n s

/-- R3: no harness operation happens inside a batch: a slot leaves the harness's queue as it was. The spec infers this
in R316, which it marks as derived; the queue itself is the model's (log entry 6). -/
def Obligations.HarnessWaitsForBatchEnd : Prop :=
  ∀ (s t : State) (b : Batch), s.batch = some b → step s = .next t → t.harness = s.harness

/-- R265: `count` advances by `i` modulo 2^32; the timer bit is set exactly when it was set or the counter, advanced one
step at a time, takes the value `compare`; nothing else of the processor state changes. -/
def Obligations.TimerSetWhenCompareCrossed : Prop :=
  ∀ (i : Nat) (p : Proc),
    (p.countUpdate i).count.toNat = (p.count.toNat + i) % 2 ^ 32 ∧
    ((causeIP (p.countUpdate i).cause).getLsbD 7 = true ↔
      ((causeIP p.cause).getLsbD 7 = true ∨
        ∃ j, 1 ≤ j ∧ j ≤ i ∧ (p.count.toNat + j) % 2 ^ 32 = p.compare.toNat)) ∧
    (∀ k, k ≠ 23 → (p.countUpdate i).cause.getLsbD k = p.cause.getLsbD k) ∧
    p.countUpdate i = { p with count := (p.countUpdate i).count, cause := (p.countUpdate i).cause }

/-- R4, R5, R177 to R182: what the step loop does with the answer of a handler of any opcode table over any collaborator:
register 0 is cleared, then `Next` sets the pc, `Fault` delivers the trap, `Stop` marks the batch, `VtOther` leaves the
pc, `Halt` resets the core and closes the batch; the `Fatal` of a lane the handler ran and a refusal go through. A handler
that returns an outcome other than `Next` and has changed a register of the core but register 0, or a lane, is refused
(U9, D13). Which registers count is the model's reading (log entry 28). -/
def Obligations.HandlerAnswersActedOn : Prop :=
  ∀ (c : Collaborator) (ot : List (Entry Handler)) (w : IWord) (h : Handler), decodeIn ot w = some h →
    ∃ g, (tableSystem c ot).dispatch w = some g ∧ ∀ s u : State,
      (∀ npc, h (laneSystem c ot) w s = .next (u, .next npc) →
        g s = .next { u with core := { u.core.xWrite 0 0 with pc := npc } }) ∧
      (u.core.xWrite 0 0 = s.core.xWrite 0 0 → u.lanes = s.lanes →
        (∀ code, h (laneSystem c ot) w s = .next (u, .fault code) →
          g s = deliverTrap code { u with core := u.core.xWrite 0 0 }) ∧
        (h (laneSystem c ot) w s = .next (u, .stop) →
          g s = .next { u with core := u.core.xWrite 0 0,
                               batch := u.batch.map (fun b => { b with stopped := true }) }) ∧
        (h (laneSystem c ot) w s = .next (u, .vtOther) → g s = .next { u with core := u.core.xWrite 0 0 }) ∧
        (h (laneSystem c ot) w s = .next (u, .halt) → ∃ t, g s = .next t ∧ t.batch = none ∧ t.mem = u.mem ∧
          t.core = { Proc.zero u.core.coreId u.core.laneIndex with status := t.core.status })) ∧
      (∀ o, h (laneSystem c ot) w s = .next (u, o) → (∀ npc, o ≠ .next npc) →
        (u.core.xWrite 0 0 ≠ s.core.xWrite 0 0 ∨ u.lanes ≠ s.lanes) → g s = .refused .handlerObligation) ∧
      (∀ r, h (laneSystem c ot) w s = .fault r → g s = .fault r) ∧
      (∀ r, h (laneSystem c ot) w s = .refused r → g s = .refused r)

/-- R151, R152, U14: a lane has no lanes, so running a lane from a lane is refused, whatever the system. -/
def Obligations.NestedLanesRefused : Prop :=
  ∀ (sys : System) (k n : Nat) (a : Word) (lane : Proc) (s : State),
    runLane sys k a n (focusLane lane s) = .refused (.noSuchLane k)

/-! ## The instructions -/

/-- R200 (FX.ADDI): its words, its result modulo 2^64, register 0, the next pc, and that nothing else changes. -/
def Obligations.AddiAddsImmediate : Prop :=
  (∀ w : IWord, w &&& 0x0000707F = 0x00000013 → decodeWord w = some (.addi (fieldRd w) (fieldRs1 w) (fieldImmI w))) ∧
  ∀ (rd rs1 : Reg) (imm : BitVec 12) (s : State), ∃ t, exec (.addi rd rs1 imm) s = .next t ∧
    writesX rd (s.core.xRead rs1 + imm.signExtend 64) s t ∧ t.core.pc = s.core.pc + 4 ∧ keepsAllButXPc s t ∧
    keepsMemory s t

/-- R201 (FX.ADD). -/
def Obligations.AddAddsRegisters : Prop :=
  (∀ w : IWord, w &&& 0xFE00707F = 0x00000033 → decodeWord w = some (.add (fieldRd w) (fieldRs1 w) (fieldRs2 w))) ∧
  ∀ (rd rs1 rs2 : Reg) (s : State), ∃ t, exec (.add rd rs1 rs2) s = .next t ∧
    writesX rd (s.core.xRead rs1 + s.core.xRead rs2) s t ∧ t.core.pc = s.core.pc + 4 ∧ keepsAllButXPc s t ∧
    keepsMemory s t

/-- R202 (FX.SUB). -/
def Obligations.SubSubtractsRegisters : Prop :=
  (∀ w : IWord, w &&& 0xFE00707F = 0x40000033 → decodeWord w = some (.sub (fieldRd w) (fieldRs1 w) (fieldRs2 w))) ∧
  ∀ (rd rs1 rs2 : Reg) (s : State), ∃ t, exec (.sub rd rs1 rs2) s = .next t ∧
    writesX rd (s.core.xRead rs1 - s.core.xRead rs2) s t ∧ t.core.pc = s.core.pc + 4 ∧ keepsAllButXPc s t ∧
    keepsMemory s t

/-- R203 (FX.LW) over the fixture memory of R54: the value loaded, and the two faults, on which `x[rd]` is not
written. -/
def Obligations.LoadWord : Prop :=
  (∀ w : IWord, w &&& 0x0000707F = 0x00002003 → decodeWord w = some (.lw (fieldRd w) (fieldRs1 w) (fieldImmI w))) ∧
  ∀ (rd rs1 : Reg) (imm : BitVec 12) (s : State) (a : Word), a = s.core.xRead rs1 + imm.signExtend 64 →
    (accessOk s a → ∃ t, exec (.lw rd rs1 imm) s = .next t ∧
      writesX rd ((s.mem.read (a.toNat + 3) ++ s.mem.read (a.toNat + 2) ++ s.mem.read (a.toNat + 1) ++
        s.mem.read a.toNat : BitVec 32).signExtend 64) s t ∧
      t.core.pc = s.core.pc + 4 ∧ keepsAllButXPc s t ∧ keepsMemory s t) ∧
    (s.port.vm = false → a.toNat % 4 ≠ 0 → statusET s.core.status = true → ∃ t, exec (.lw rd rs1 imm) s = .next t ∧
      trapEntered 8 a s t ∧ keepsX s t ∧ t.lastFault = a ∧ keepsMachine s t) ∧
    (s.port.vm = false → a.toNat % 4 = 0 → s.memSize < a.toNat + 4 → statusET s.core.status = true →
      ∃ t, exec (.lw rd rs1 imm) s = .next t ∧ trapEntered 10 a s t ∧ keepsX s t ∧ t.lastFault = a ∧
        keepsMachine s t)

/-- R204 (FX.SW) over the fixture memory of R54: the four bytes stored at the address the meaning computes, every other
byte unchanged, and the two faults, on which memory is unchanged. The bytes stored read back in canonical memory, which
`StepKeepsInvariant` says every step keeps. -/
def Obligations.StoreWord : Prop :=
  (∀ w : IWord, w &&& 0x0000707F = 0x00002023 → decodeWord w = some (.sw (fieldRs2 w) (fieldRs1 w) (fieldImmS w))) ∧
  ∀ (rs2 rs1 : Reg) (imm : BitVec 12) (s : State) (a : Word), a = s.core.xRead rs1 + imm.signExtend 64 →
    (accessOk s a → s.mem.wf → ∃ t, exec (.sw rs2 rs1 imm) s = .next t ∧
      (∀ k < 4, t.mem.read (a.toNat + k) = (s.core.xRead rs2).extractLsb' (8 * k) 8) ∧
      (∀ c, c < a.toNat ∨ a.toNat + 4 ≤ c → t.mem.read c = s.mem.read c) ∧
      keepsX s t ∧ t.core.pc = s.core.pc + 4 ∧ keepsAllButXPc { s with mem := t.mem } t) ∧
    (s.port.vm = false → a.toNat % 4 ≠ 0 → statusET s.core.status = true → ∃ t, exec (.sw rs2 rs1 imm) s = .next t ∧
      trapEntered 9 a s t ∧ keepsX s t ∧ t.lastFault = a ∧ keepsMachine s t) ∧
    (s.port.vm = false → a.toNat % 4 = 0 → s.memSize < a.toNat + 4 → statusET s.core.status = true →
      ∃ t, exec (.sw rs2 rs1 imm) s = .next t ∧ trapEntered 11 a s t ∧ keepsX s t ∧ t.lastFault = a ∧
        keepsMachine s t)

/-- R205 (FX.BNE): the branch is taken exactly when the registers differ; the handler itself never faults. -/
def Obligations.BranchNotEqual : Prop :=
  (∀ w : IWord, w &&& 0x0000707F = 0x00001063 → decodeWord w = some (.bne (fieldRs1 w) (fieldRs2 w) (fieldImmB w))) ∧
  ∀ (rs1 rs2 : Reg) (off : BitVec 13) (s : State), ∃ t, exec (.bne rs1 rs2 off) s = .next t ∧
    (s.core.xRead rs1 ≠ s.core.xRead rs2 → t.core.pc = s.core.pc + off.signExtend 64) ∧
    (s.core.xRead rs1 = s.core.xRead rs2 → t.core.pc = s.core.pc + 4) ∧ keepsX s t ∧ keepsAllButXPc s t ∧
    keepsMemory s t

/-- R206 (FX.JAL): link and target are both computed from the old pc. -/
def Obligations.JumpAndLink : Prop :=
  (∀ w : IWord, w &&& 0x0000007F = 0x0000006F → decodeWord w = some (.jal (fieldRd w) (fieldImmJ w))) ∧
  ∀ (rd : Reg) (off : BitVec 21) (s : State), ∃ t, exec (.jal rd off) s = .next t ∧
    writesX rd (s.core.pc + 4) s t ∧ t.core.pc = s.core.pc + off.signExtend 64 ∧ keepsAllButXPc s t ∧ keepsMemory s t

/-- R207 (FX.ECALL): the syscall trap is taken; with traps disabled the delivery is fatal. -/
def Obligations.EcallTakesSyscallTrap : Prop :=
  decodeWord 0x00000073 = some .ecall ∧
  ∀ s : State,
    (statusET s.core.status = true → ∃ t, exec .ecall s = .next t ∧ trapEntered 6 s.lastFault s t ∧ keepsX s t ∧
      t.lastFault = s.lastFault ∧ keepsMachine s t) ∧
    (statusET s.core.status = false → exec .ecall s = .fault (.errorMode s.core.coreId 6))

/-- R208, R275 (FX.ERET): in supervisor mode S becomes PS, ET becomes 1, the other status fields are kept and the
machine continues at `epc`; in user mode the privileged-instruction trap is taken. The kept fields are stated for a
status word a status write could have left, which `StepKeepsInvariant` says every step keeps. -/
def Obligations.EretReturnsFromTrap : Prop :=
  decodeWord 0x10200073 = some .eret ∧
  ∀ s : State,
    (statusS s.core.status = true → maskStatus s.build s.core.status = s.core.status → ∃ t, exec .eret s = .next t ∧
      decodeStatus t.core.status = { decodeStatus s.core.status with s := statusPS s.core.status, et := true } ∧
      t.core.pc = s.core.epc ∧ keepsX s t ∧
      t.core = { s.core with x := t.core.x, pc := t.core.pc, status := t.core.status } ∧
      t.port = { vm := statusVM s.core.status, sup := statusPS s.core.status, notifies := s.port.notifies + 1,
                 flushes := s.port.flushes + 1 } ∧ keepsMachine s t ∧ t.lastFault = s.lastFault) ∧
    (statusS s.core.status = false → statusET s.core.status = true → ∃ t, exec .eret s = .next t ∧
      trapEntered 3 s.lastFault s t ∧ keepsX s t ∧ t.lastFault = s.lastFault ∧ keepsMachine s t)

/-- R209 (FX.MTCR): in supervisor mode a number of the table gets the port's write effect (stated register by register
below), an unknown number the illegal-instruction trap; in user mode the privileged-instruction trap is taken. -/
def Obligations.MoveToControlRegister : Prop :=
  (∀ w : IWord, w &&& 0x0000707F = 0x00001073 → decodeWord w = some (.mtcr (fieldImmI w) (fieldRs1 w) (fieldRd w))) ∧
  ∀ (cr : BitVec 12) (rs1 rd : Reg) (s : State),
    (statusS s.core.status = true → cr.toNat ∈ [0, 1, 2, 3, 4, 5, 6, 10, 12, 13, 18, 30, 31] →
      ∃ u t, crWrite cr.toNat (s.core.xRead rs1) s = some u ∧ exec (.mtcr cr rs1 rd) s = .next t ∧
        keepsX s t ∧ t.core.pc = s.core.pc + 4 ∧ keepsAllButXPc u t ∧ keepsMemory s t) ∧
    (statusS s.core.status = true → cr.toNat ∉ [0, 1, 2, 3, 4, 5, 6, 10, 12, 13, 18, 30, 31] →
      statusET s.core.status = true → ∃ t, exec (.mtcr cr rs1 rd) s = .next t ∧ trapEntered 2 s.lastFault s t ∧
        keepsX s t ∧ t.lastFault = s.lastFault ∧ keepsMachine s t) ∧
    (statusS s.core.status = false → statusET s.core.status = true → ∃ t, exec (.mtcr cr rs1 rd) s = .next t ∧
      trapEntered 3 s.lastFault s t ∧ keepsX s t ∧ t.lastFault = s.lastFault ∧ keepsMachine s t)

/-- R210 (FX.MFCR): in supervisor mode a number of the table is read into `rd`, an unknown number takes the
illegal-instruction trap; in user mode the privileged-instruction trap is taken. -/
def Obligations.MoveFromControlRegister : Prop :=
  (∀ w : IWord, w &&& 0x0000707F = 0x00002073 → decodeWord w = some (.mfcr (fieldRd w) (fieldImmI w) (fieldRs1 w))) ∧
  ∀ (rd : Reg) (cr : BitVec 12) (rs1 : Reg) (s : State),
    (statusS s.core.status = true → cr.toNat ∈ [0, 1, 2, 3, 4, 5, 6, 10, 12, 13, 18, 30, 31] →
      ∃ v t, crRead cr.toNat s = some v ∧ exec (.mfcr rd cr rs1) s = .next t ∧ writesX rd v s t ∧
        t.core.pc = s.core.pc + 4 ∧ keepsAllButXPc s t ∧ keepsMemory s t) ∧
    (statusS s.core.status = true → cr.toNat ∉ [0, 1, 2, 3, 4, 5, 6, 10, 12, 13, 18, 30, 31] →
      statusET s.core.status = true → ∃ t, exec (.mfcr rd cr rs1) s = .next t ∧ trapEntered 2 s.lastFault s t ∧
        keepsX s t ∧ t.lastFault = s.lastFault ∧ keepsMachine s t) ∧
    (statusS s.core.status = false → statusET s.core.status = true → ∃ t, exec (.mfcr rd cr rs1) s = .next t ∧
      trapEntered 3 s.lastFault s t ∧ keepsX s t ∧ t.lastFault = s.lastFault ∧ keepsMachine s t)

/-- R180, R183, R211 (FX.STOP): the slot counts, the pc still holds the address of the instruction, and the batch ends
with its count update. The batch's fields, its stop mark among them, are the model's (log entry 7), and so is that the
same step closes the batch and that a state with no batch in progress stays so (log entry 9). -/
def Obligations.StopEndsBatch : Prop :=
  decodeWord 0x0000000B = some .stop ∧
  (∀ s : State, ∃ t, exec .stop s = .next t ∧ keepsX s t ∧ t.core = { s.core with x := t.core.x } ∧
    t = { s with core := t.core, batch := s.batch.map (fun b => { b with stopped := true }) } ∧ keepsMemory s t) ∧
  ∀ (s : State) (b : Batch), s.batch = some b → takenLine s.core.status s.core.cause = none →
    accessOk s s.core.pc → s.mem.read4 s.core.pc.toNat = 0x0000000B →
    ∃ t, step s = .next t ∧ t.batch = none ∧ t.core.pc = s.core.pc ∧ keepsX s t ∧
      t.core = { s.core.countUpdate (b.used + 1) with x := t.core.x } ∧ keepsMemory s t

/-- R182, R214, R300 (FX.HALT): the core is reset and not runnable, its lanes are reset, the batch is over with no count
update; core index, lane index, memory, sizes, capabilities and the harness's queue are kept. That the collaborator is
told exactly once also with lanes attached, and when a lane halts, is the model's reading of R300 (log entry 11). -/
def Obligations.HaltResetsCore : Prop :=
  decodeWord 0x0000300B = some .halt ∧
  ∀ s : State, ∃ t, exec .halt s = .next t ∧
    t.core = { Proc.zero s.core.coreId s.core.laneIndex with status := t.core.status } ∧
    (s.core.laneIndex = none → t.core.status = 0) ∧ t.batch = none ∧
    t.lanes = s.lanes.map (fun ls => ls.map (Proc.resetTo s.build)) ∧
    t.port = { vm := false, sup := false, notifies := s.port.notifies + 1, flushes := s.port.flushes + 1 } ∧
    t = { s with core := t.core, batch := none, lanes := t.lanes, port := t.port } ∧ keepsMemory s t

/-- R142, R212 (FX.SETVL): with the vector unit enabled `vl` becomes the smaller of the request and `vlmax`, which is
also the result; else the vector-disabled trap is taken. -/
def Obligations.SetVectorLength : Prop :=
  (∀ w : IWord, w &&& 0x0000707F = 0x0000100B → decodeWord w = some (.setvl (fieldRd w) (fieldRs1 w) (fieldImmI w))) ∧
  ∀ (rd rs1 : Reg) (imm : BitVec 12) (s : State),
    (statusEV s.core.status = true → ∃ t, exec (.setvl rd rs1 imm) s = .next t ∧
      t.core.vl.toNat = min (s.core.xRead rs1).toNat s.core.vlmax.toNat ∧ writesX rd t.core.vl s t ∧
      t.core.pc = s.core.pc + 4 ∧ t = { s with core := { s.core with x := t.core.x, pc := t.core.pc, vl := t.core.vl } } ∧
      keepsMemory s t) ∧
    (statusEV s.core.status = false → statusET s.core.status = true → ∃ t, exec (.setvl rd rs1 imm) s = .next t ∧
      trapEntered 12 s.lastFault s t ∧ keepsX s t ∧ t.lastFault = s.lastFault ∧ keepsMachine s t)

/-- R140, R141, R213 (FX.VCFG): with the vector unit enabled the use counts are stored and `vlmax` recomputed by the
formula, with `vl` clamped to it; else the vector-disabled trap is taken. The bound on the lane count is part of the
invariant (`StepKeepsInvariant`). -/
def Obligations.VectorConfigure : Prop :=
  (∀ w : IWord, w &&& 0xFE00707F = 0x0000200B → decodeWord w = some (.vcfg (fieldRs1 w) (fieldRs2 w) (fieldRd w))) ∧
  ∀ (rs1 rs2 rd : Reg) (s : State),
    (statusEV s.core.status = true → ∃ t, exec (.vcfg rs1 rs2 rd) s = .next t ∧
      t.core.nxprUse = s.core.xRead rs1 ∧ t.core.nfprUse = s.core.xRead rs2 ∧
      t.core.vlmax.toNat = min ((if (s.core.xRead rs1).toNat + (s.core.xRead rs2).toNat < 2 then 256
        else 256 / ((s.core.xRead rs1).toNat + (s.core.xRead rs2).toNat - 1)) * s.core.laneCount) 2048 ∧
      t.core.vl.toNat = min s.core.vl.toNat t.core.vlmax.toNat ∧ keepsX s t ∧ t.core.pc = s.core.pc + 4 ∧
      t = { s with core := { s.core with
        x := t.core.x, pc := t.core.pc, nxprUse := t.core.nxprUse, nfprUse := t.core.nfprUse,
        vlmax := t.core.vlmax, vl := t.core.vl } } ∧ keepsMemory s t) ∧
    (statusEV s.core.status = false → statusET s.core.status = true → ∃ t, exec (.vcfg rs1 rs2 rd) s = .next t ∧
      trapEntered 12 s.lastFault s t ∧ keepsX s t ∧ t.lastFault = s.lastFault ∧ keepsMachine s t)

/-! ## Control registers and status -/

/-- R104, R105: the read value of every control register, and that every other number answers `NoSuchRegister` to a
read and to a write. That `coreid` reads modulo 2^64 for a core index of 2^64 or more is the model's choice (log entry
26). -/
def Obligations.ControlRegisterNumbers : Prop :=
  ∀ s : State,
    crRead 0 s = some (s.core.status.setWidth 64) ∧ crRead 1 s = some s.core.epc ∧
    crRead 2 s = some s.core.badvaddr ∧ crRead 3 s = some s.core.evec ∧
    crRead 4 s = some (s.core.count.setWidth 64) ∧ crRead 5 s = some (s.core.compare.setWidth 64) ∧
    crRead 6 s = some (s.core.cause.setWidth 64) ∧ crRead 10 s = some (BitVec.ofNat 64 s.core.coreId) ∧
    crRead 12 s = some s.core.k0 ∧ crRead 13 s = some s.core.k1 ∧
    crRead 18 s = some (s.core.laneMask.setWidth 64) ∧ crRead 30 s = some s.core.tohost ∧
    crRead 31 s = some s.core.fromhost ∧
    (∀ (n : Nat) (v : Word), n ∉ [0, 1, 2, 3, 4, 5, 6, 10, 12, 13, 18, 30, 31] →
      crRead n s = none ∧ crWrite n v s = none)

/-- R106: a write of a plain control register is read back and changes no other register, and has no side effect;
writing `coreid` changes nothing. -/
def Obligations.PlainControlRegisterWrites : Prop :=
  (∀ n ∈ [1, 2, 3, 12, 13, 30, 31], ∀ (v : Word) (s : State), ∃ u, crWrite n v s = some u ∧ crRead n u = some v ∧
    (∀ m, m ≠ n → crRead m u = crRead m s) ∧
    u = { s with core := { s.core with
      epc := u.core.epc, badvaddr := u.core.badvaddr, evec := u.core.evec, k0 := u.core.k0, k1 := u.core.k1,
      tohost := u.core.tohost, fromhost := u.core.fromhost } }) ∧
  (∀ (v : Word) (s : State), crWrite 10 v s = some s)

/-- R107, R108, R109: a write of cause stores its two fields and zero in every reserved bit; a write of compare clears
the timer's pending bit and no other; a write of count does nothing else. -/
def Obligations.CauseCompareCountWrites : Prop :=
  ∀ (v : Word) (s : State),
    (∃ u, crWrite 6 v s = some u ∧ causeCode u.core.cause = v.extractLsb' 0 5 ∧
      causeIP u.core.cause = v.extractLsb' 16 8 ∧
      (∀ k, (5 ≤ k ∧ k < 16) ∨ 24 ≤ k → u.core.cause.getLsbD k = false) ∧
      u = { s with core := { s.core with cause := u.core.cause } }) ∧
    (∃ u, crWrite 5 v s = some u ∧ u.core.compare = v.setWidth 32 ∧ u.core.cause.getLsbD 23 = false ∧
      (∀ k, k ≠ 23 → u.core.cause.getLsbD k = s.core.cause.getLsbD k) ∧
      u = { s with core := { s.core with compare := u.core.compare, cause := u.core.cause } }) ∧
    (∃ u, crWrite 4 v s = some u ∧ u.core.count = v.setWidth 32 ∧
      u = { s with core := { s.core with count := u.core.count } })

/-- R143: a write of `vecbank` sets the mask to the low 8 bits, the lane count to the number of its one bits, and
recomputes `vlmax` and `vl`. -/
def Obligations.LaneMaskWrite : Prop :=
  ∀ (v : Word) (s : State), ∃ u, crWrite 18 v s = some u ∧
    (∀ k, u.core.laneMask.getLsbD k = (decide (k < 8) && v.getLsbD k)) ∧
    u.core.laneCount = ((List.range 8).filter (fun k => v.getLsbD k)).length ∧
    u.core.vlmax.toNat = min ((if s.core.nxprUse.toNat + s.core.nfprUse.toNat < 2 then 256
      else 256 / (s.core.nxprUse.toNat + s.core.nfprUse.toNat - 1)) * u.core.laneCount) 2048 ∧
    u.core.vl.toNat = min s.core.vl.toNat u.core.vlmax.toNat ∧
    u = { s with core := { s.core with
      laneMask := u.core.laneMask, laneCount := u.core.laneCount, vlmax := u.core.vlmax, vl := u.core.vl } }

/-- R16, R110, R111: a status write stores every writable bit of a built-in feature and 0 in every other bit, notifies
the collaborator of VM and S and flushes once each, and changes nothing else; the derived width follows (R17); a write of
control register 0 is a status write of the low 32 bits (R104). -/
def Obligations.StatusWriteMasksAndNotifies : Prop :=
  (∀ (v : IWord) (s u : State), u = statusWrite v s →
    (∀ k, u.core.status.getLsbD k = (v.getLsbD k && (decide (k ≤ 8) || (decide (16 ≤ k) && decide (k ≤ 23))) &&
      !((k == 1 && !s.build.haveFpu) || (k == 2 && !s.build.haveVec) || (k == 3 && !s.build.haveRvc) ||
        ((k == 6 || k == 7) && !s.build.have64)))) ∧
    u.port = { vm := v.getLsbD 8, sup := v.getLsbD 5, notifies := s.port.notifies + 1,
               flushes := s.port.flushes + 1 } ∧
    u = { s with core := { s.core with status := u.core.status }, port := u.port } ∧
    xprlen u.core.status = (if s.build.have64 && (if v.getLsbD 5 then v.getLsbD 7 else v.getLsbD 6) then 64 else 32)) ∧
  (∀ (v : Word) (s : State), crWrite 0 v s = some (statusWrite (v.setWidth 32) s))

/-- R110, R111: writing the current value, when a status write left it, changes neither status nor the derived width,
and still notifies and flushes; the spec infers this in R114, which it marks as derived. -/
def Obligations.StatusRewriteStillNotifies : Prop :=
  ∀ s : State, maskStatus s.build s.core.status = s.core.status →
    (statusWrite s.core.status s).core = s.core ∧
    xprlen (statusWrite s.core.status s).core.status = xprlen s.core.status ∧
    (statusWrite s.core.status s).port.notifies = s.port.notifies + 1 ∧
    (statusWrite s.core.status s).port.flushes = s.port.flushes + 1

/-- R112: the places of the fields, and that the fields decoded after a status write of their encoding are the encoded
fields but for those of absent capabilities, which are 0. -/
def Obligations.StatusFieldsRoundTrip : Prop :=
  (∀ st : IWord, decodeStatus st =
    { et := st.getLsbD 0, ef := st.getLsbD 1, ev := st.getLsbD 2, ec := st.getLsbD 3, ps := st.getLsbD 4,
      s := st.getLsbD 5, u64 := st.getLsbD 6, s64 := st.getLsbD 7, vm := st.getLsbD 8, im := st.extractLsb' 16 8 }) ∧
  ∀ (b : Build) (v : StatusFields), decodeStatus (maskStatus b (encodeStatus v)) =
    { v with ef := v.ef && b.haveFpu, ev := v.ev && b.haveVec, ec := v.ec && b.haveRvc, u64 := v.u64 && b.have64,
             s64 := v.s64 && b.have64 }

/-- R113: the places of the fields of cause and fsr; the fields decode from their encodings, at any value, and a write
keeps the encodings as they are. -/
def Obligations.CauseAndFsrFieldsRoundTrip : Prop :=
  (∀ v : IWord, causeCode v = v.extractLsb' 0 5 ∧ causeIP v = v.extractLsb' 16 8 ∧ fsrAexc v = v.extractLsb' 0 5 ∧
    fsrRM v = v.extractLsb' 5 3 ∧ fsrNX v = v.getLsbD 0 ∧ fsrUF v = v.getLsbD 1 ∧ fsrOF v = v.getLsbD 2 ∧
    fsrDZ v = v.getLsbD 3 ∧ fsrNV v = v.getLsbD 4) ∧
  (∀ (code : BitVec 5) (ip : BitVec 8), causeCode (encodeCause code ip) = code ∧ causeIP (encodeCause code ip) = ip ∧
    maskCause (encodeCause code ip) = encodeCause code ip) ∧
  (∀ (aexc : BitVec 5) (rm : BitVec 3), fsrAexc (encodeFsr aexc rm) = aexc ∧ fsrRM (encodeFsr aexc rm) = rm ∧
    maskFsr (encodeFsr aexc rm) = encodeFsr aexc rm ∧ fsrNX (encodeFsr aexc rm) = aexc.getLsbD 0 ∧
    fsrUF (encodeFsr aexc rm) = aexc.getLsbD 1 ∧ fsrOF (encodeFsr aexc rm) = aexc.getLsbD 2 ∧
    fsrDZ (encodeFsr aexc rm) = aexc.getLsbD 3 ∧ fsrNV (encodeFsr aexc rm) = aexc.getLsbD 4)

/-- R116, R118: a write of fsr stores the low 8 bits, the read is zero-extended, and nothing else changes (no
notification, no flush). -/
def Obligations.FsrWriteKeepsLowByte : Prop :=
  ∀ (v : Word) (s : State), (fsrRead (fsrWrite v s)).toNat = v.toNat % 256 ∧
    fsrWrite v s = { s with core := { s.core with fsr := (fsrWrite v s).core.fsr } } ∧
    fsrRead s = s.core.fsr.setWidth 64

/-- R102, R103: a floating-point write is read back, register 0 included, and touches no other register. -/
def Obligations.FloatRegisterPorts : Prop :=
  ∀ (p : Proc) (i j : Reg) (v : Word), (p.fWrite i v).fRead j = (if j = i then v else p.fRead j) ∧
    p.fWrite i v = { p with f := (p.fWrite i v).f }

/-- R140: `vlmax` is the formula clamped to the lane-array capacity, `vl` is clamped to it, and nothing else changes. -/
def Obligations.VlmaxFormula : Prop :=
  ∀ p : Proc,
    p.recomputeVlmax.vlmax.toNat = min ((if p.nxprUse.toNat + p.nfprUse.toNat < 2 then 256
      else 256 / (p.nxprUse.toNat + p.nfprUse.toNat - 1)) * p.laneCount) 2048 ∧
    p.recomputeVlmax.vl.toNat = min p.vl.toNat p.recomputeVlmax.vlmax.toNat ∧
    p.recomputeVlmax = { p with vlmax := p.recomputeVlmax.vlmax, vl := p.recomputeVlmax.vl }

/-! ## Traps -/

/-- R251, R256: a code out of range and a trap with traps disabled are fatal; any other trap saves the pc, records the
code with IP kept, copies the fault address, sets S := 1, PS := S, ET := 0 with every other status field kept, continues
at `evec`, tells the collaborator, and emits its line when the batch is traced. The kept fields are stated for a status
word a status write could have left, which `StepKeepsInvariant` says every step keeps. -/
def Obligations.TrapDelivery : Prop :=
  ∀ (code : Nat) (s : State),
    (24 ≤ code → deliverTrap code s = .fault (.badTrapCode s.core.coreId code)) ∧
    (code < 24 → statusET s.core.status = false → deliverTrap code s = .fault (.errorMode s.core.coreId code)) ∧
    (code < 24 → statusET s.core.status = true → maskStatus s.build s.core.status = s.core.status →
      ∃ t, deliverTrap code s = .next t ∧ trapEntered code s.lastFault s t ∧ t.core.x = s.core.x ∧
        t.core.cause = (s.core.cause &&& ~~~0x1F#32) ||| BitVec.ofNat 32 code ∧
        decodeStatus t.core.status =
          { decodeStatus s.core.status with ps := statusS s.core.status, s := true, et := false } ∧
        t.port = { vm := statusVM s.core.status, sup := true, notifies := s.port.notifies + 1,
                   flushes := s.port.flushes + 1 } ∧ t.lastFault = s.lastFault ∧ keepsMachine s t ∧
        t.traceOut = (if s.tracing then s.traceOut ++ [.trap s.core.coreId code s.core.pc] else s.traceOut))

/-- R255, R258: a code out of range is fatal, checked first; a trap with traps disabled is fatal; and only these are. -/
def Obligations.FatalTrapsExactly : Prop :=
  ∀ (code : Nat) (s : State),
    (deliverTrap code s = .fault (.badTrapCode s.core.coreId code) ↔ 24 ≤ code) ∧
    (deliverTrap code s = .fault (.errorMode s.core.coreId code) ↔ code < 24 ∧ statusET s.core.status = false) ∧
    ((∃ t, deliverTrap code s = .next t) ↔ code < 24 ∧ statusET s.core.status = true)

/-- R256, R275: a trap followed by a trap return restores the mode and the trap enable, and leaves the interrupted pc
in `epc`. -/
def Obligations.TrapThenReturnRestoresMode : Prop :=
  ∀ (code : Nat) (s t : State), deliverTrap code s = .next t → maskStatus s.build s.core.status = s.core.status →
    decodeStatus (trapReturn t).core.status =
      { decodeStatus s.core.status with ps := statusS s.core.status } ∧
    (trapReturn t).core.epc = s.core.pc ∧ (trapReturn t).core.cause = t.core.cause

/-- R262, R263: an inter-processor interrupt makes line 5 pending and the core runnable; a start makes it runnable;
nothing else changes. -/
def Obligations.IpiAndStart : Prop :=
  ∀ s : State,
    ((deliverIpi s).core.cause.getLsbD 21 = true ∧
      (∀ k, k ≠ 21 → (deliverIpi s).core.cause.getLsbD k = s.core.cause.getLsbD k) ∧
      deliverIpi s = { s with core := { s.core with cause := (deliverIpi s).core.cause, run := true } }) ∧
    start s = { s with core := { s.core with run := true } }

/-! ## Lanes -/

/-- R150: attaching creates every lane with zero registers, its index, the owner's core index, EF and EV pre-enabled
where built in, and not running. That the collaborator was last told user mode without virtual memory is read from R150
with R300 and R111 by inference, and that a second attach is refused is the model's choice (log entry 12 names
both). -/
def Obligations.LaneCreation : Prop :=
  ∀ s : State,
    (s.lanes = none → ∃ t, attachLanes s = .next t ∧
      (∀ k, k < 2048 → ∃ lane, laneAt k t = some lane ∧
        lane = { Proc.zero s.core.coreId (some k) with status := lane.status } ∧
        (∀ j, lane.status.getLsbD j = ((j == 1 && s.build.haveFpu) || (j == 2 && s.build.haveVec)))) ∧
      t = { s with lanes := t.lanes, port := t.port } ∧ t.port.vm = false ∧ t.port.sup = false) ∧
    (s.lanes ≠ none → attachLanes s = .refused .alreadyAttached)

/-- R151: a lane index outside the array, or any index before attachment, is refused, and only those are. -/
def Obligations.LaneMultiplexerRefusesExactly : Prop :=
  ∀ (k : Nat) (s : State), onLane k (fun u => .next u) s = .refused (.noSuchLane k) ↔ (s.lanes = none ∨ 2048 ≤ k)

/-- R152, R154: running a lane leaves the owner's processor state, its batch and every other lane as they were, and the
lane not runnable. -/
def Obligations.RunLaneIsolatesOwner : Prop :=
  ∀ (k : Nat) (a : Word) (n : Nat) (s t : State), runLane fixtureSystem k a n s = .next t →
    t.core = s.core ∧ t.batch = s.batch ∧ t.build = s.build ∧ t.memSize = s.memSize ∧ t.harness = s.harness ∧
    (∀ j, j ≠ k → laneAt j t = laneAt j s) ∧ (∃ lane, laneAt k t = some lane ∧ lane.run = false)

/-- R153, R300: a reset puts every register of the core at 0, notifies user mode without virtual memory exactly once,
and puts every lane that knows its index and its owner back to its creation state. That the one notification also holds
with lanes attached is the model's reading of R300 (log entry 11). -/
def Obligations.ResetRestoresCreationState : Prop :=
  ∀ s : State, s.core.laneIndex = none →
    (resetAll s).core = Proc.zero s.core.coreId none ∧
    (resetAll s).port = { vm := false, sup := false, notifies := s.port.notifies + 1,
                          flushes := s.port.flushes + 1 } ∧
    resetAll s = { s with core := (resetAll s).core, lanes := (resetAll s).lanes, port := (resetAll s).port } ∧
    (∀ (k : Nat) (lane : Proc), laneAt k s = some lane → lane.laneIndex = some k → lane.coreId = s.core.coreId →
      laneAt k (resetAll s) = some (laneCreated s.build s.core.coreId k))

/-! ## Memory -/

/-- R46, R54: a 4-byte store puts byte `k` of the value at address `a + k` and leaves every other byte, and reads back
as the value. -/
def Obligations.StoredWordReadsBack : Prop :=
  ∀ (m : Memory) (a c : Nat) (v : IWord), m.wf →
    (m.write4 a v).read c = (if a ≤ c ∧ c < a + 4 then v.extractLsb' (8 * (c - a)) 8 else m.read c) ∧
    (m.write4 a v).read4 a = v

/-- R53: a fetch returns the word memory holds at the time of the fetch, and so a word stored just before. -/
def Obligations.FetchSeesEarlierStore : Prop :=
  (∀ (t : State) (a : Word) (ec : Bool), accessOk t a → memFetch t a ec = .ok
    (t.mem.read (a.toNat + 3) ++ t.mem.read (a.toNat + 2) ++ t.mem.read (a.toNat + 1) ++ t.mem.read a.toNat : BitVec 32)) ∧
  (∀ (s t : State) (a : Word) (v : IWord) (ec : Bool), s.mem.wf → memWrite s a 4 v = .ok t →
    memFetch t a ec = .ok v)

/-- R45, R46, R48, R54: a data access of any width `n` over the fixture memory: refused with translation on, else a
fault for a misaligned address, else a fault past the end of memory, else performed. Performed, a read answers the
little-endian composition of the `n` bytes; a write puts byte `k` of the value at address `a + k` and leaves every other
byte. For a width other than 4 the fixture memory's checks are the model's choice (log entry 30). -/
def Obligations.DataAccessOfAnyWidth : Prop :=
  (∀ (s : State) (a : Word) (n w : Nat) (v : BitVec w),
    (s.port.vm = true → memRead s a n = .refused .translation ∧ memWrite s a n v = .refused .translation) ∧
    (s.port.vm = false → a.toNat % n ≠ 0 → memRead s a n = .fault 8 { s with lastFault := a } ∧
      memWrite s a n v = .fault 9 { s with lastFault := a }) ∧
    (s.port.vm = false → a.toNat % n = 0 → s.memSize < a.toNat + n →
      memRead s a n = .fault 10 { s with lastFault := a } ∧ memWrite s a n v = .fault 11 { s with lastFault := a }) ∧
    (accessFits n s a → memRead s a n = .ok (s.mem.readLE a.toNat n) ∧
      memWrite s a n v = .ok { s with mem := s.mem.writeLE a.toNat n v })) ∧
  (∀ (m : Memory) (a n i : Nat), (m.readLE a n).getLsbD i =
    (decide (i < 8 * n) && (m.read (a + i / 8)).getLsbD (i % 8))) ∧
  (∀ (m : Memory) (a n c w : Nat) (v : BitVec w), m.wf → (m.writeLE a n v).read c =
    (if a ≤ c ∧ c < a + n then v.extractLsb' (8 * (c - a)) 8 else m.read c))

/-! ## The whole machine -/

/-- The invariant holds after reset (R300). The sizes and capabilities at reset are the model's choice (log entry 2). -/
def Obligations.ResetMeetsInvariant : Prop := State.reset.inv

/-- R11, R16, R19, R20, R22: every step that answers a next state keeps the invariant: canonical memory inside
`MEM_SIZE`, register 0 zero, reserved and disabled bits zero, the lane count and the vector lengths bounded, in the core
and in every lane. -/
def Obligations.StepKeepsInvariant : Prop :=
  ∀ s t : State, s.inv → step s = .next t → t.inv

/-- R208 to R210, R271: in user mode no instruction but FX.HALT changes a control register or a mode bit, except by
taking a trap, which needs traps enabled and enters supervisor mode at `evec`. -/
def Obligations.UserModeCannotReachControlState : Prop :=
  ∀ (i : Instr) (s t : State), statusS s.core.status = false → i ≠ .halt → exec i s = .next t →
    (t.core.evec = s.core.evec ∧ t.core.k0 = s.core.k0 ∧ t.core.k1 = s.core.k1 ∧ t.core.tohost = s.core.tohost ∧
      t.core.fromhost = s.core.fromhost ∧ t.core.fsr = s.core.fsr ∧ t.core.f = s.core.f ∧
      t.core.count = s.core.count ∧ t.core.compare = s.core.compare ∧ t.core.laneMask = s.core.laneMask ∧
      t.core.laneCount = s.core.laneCount ∧ t.core.run = s.core.run ∧ t.core.coreId = s.core.coreId ∧
      t.core.laneIndex = s.core.laneIndex ∧ causeIP t.core.cause = causeIP s.core.cause ∧ t.lanes = s.lanes ∧
      t.build = s.build ∧ t.memSize = s.memSize) ∧
    ((t.core.status = s.core.status ∧ t.core.cause = s.core.cause ∧ t.core.epc = s.core.epc ∧
        t.core.badvaddr = s.core.badvaddr) ∨
      (statusET s.core.status = true ∧ statusS t.core.status = true ∧ statusET t.core.status = false ∧
        statusPS t.core.status = false ∧ t.core.epc = s.core.pc ∧ t.core.pc = s.core.evec))
end

