-- ==== Sys2Proof/Laws/State.lean ====
section
/-! SUPPORT. What each update of the state leaves: one lemma per field per update, true by rfl. -/

namespace Sys2Proof.Machine

/-! ### onCore -/

@[simp] theorem onCore_core (g : Proc → Proc) (s : State) : (s.onCore g).core = g s.core := rfl
@[simp] theorem onCore_lanes (g : Proc → Proc) (s : State) : (s.onCore g).lanes = s.lanes := rfl
@[simp] theorem onCore_mem (g : Proc → Proc) (s : State) : (s.onCore g).mem = s.mem := rfl
@[simp] theorem onCore_memSize (g : Proc → Proc) (s : State) : (s.onCore g).memSize = s.memSize := rfl
@[simp] theorem onCore_lastFault (g : Proc → Proc) (s : State) : (s.onCore g).lastFault = s.lastFault := rfl
@[simp] theorem onCore_port (g : Proc → Proc) (s : State) : (s.onCore g).port = s.port := rfl
@[simp] theorem onCore_build (g : Proc → Proc) (s : State) : (s.onCore g).build = s.build := rfl
@[simp] theorem onCore_batch (g : Proc → Proc) (s : State) : (s.onCore g).batch = s.batch := rfl
@[simp] theorem onCore_traceOut (g : Proc → Proc) (s : State) : (s.onCore g).traceOut = s.traceOut := rfl
@[simp] theorem onCore_harness (g : Proc → Proc) (s : State) : (s.onCore g).harness = s.harness := rfl

/-! ### memNotify -/

@[simp] theorem memNotify_core (vm sup : Bool) (s : State) : (memNotify vm sup s).core = s.core := rfl
@[simp] theorem memNotify_lanes (vm sup : Bool) (s : State) : (memNotify vm sup s).lanes = s.lanes := rfl
@[simp] theorem memNotify_mem (vm sup : Bool) (s : State) : (memNotify vm sup s).mem = s.mem := rfl
@[simp] theorem memNotify_memSize (vm sup : Bool) (s : State) : (memNotify vm sup s).memSize = s.memSize := rfl
@[simp] theorem memNotify_lastFault (vm sup : Bool) (s : State) : (memNotify vm sup s).lastFault = s.lastFault := rfl
@[simp] theorem memNotify_port (vm sup : Bool) (s : State) : (memNotify vm sup s).port = { s.port with vm := vm, sup := sup, notifies := s.port.notifies + 1 } := rfl
@[simp] theorem memNotify_build (vm sup : Bool) (s : State) : (memNotify vm sup s).build = s.build := rfl
@[simp] theorem memNotify_batch (vm sup : Bool) (s : State) : (memNotify vm sup s).batch = s.batch := rfl
@[simp] theorem memNotify_traceOut (vm sup : Bool) (s : State) : (memNotify vm sup s).traceOut = s.traceOut := rfl
@[simp] theorem memNotify_harness (vm sup : Bool) (s : State) : (memNotify vm sup s).harness = s.harness := rfl

/-! ### memFlushTlb -/

@[simp] theorem memFlushTlb_core (s : State) : (memFlushTlb s).core = s.core := rfl
@[simp] theorem memFlushTlb_lanes (s : State) : (memFlushTlb s).lanes = s.lanes := rfl
@[simp] theorem memFlushTlb_mem (s : State) : (memFlushTlb s).mem = s.mem := rfl
@[simp] theorem memFlushTlb_memSize (s : State) : (memFlushTlb s).memSize = s.memSize := rfl
@[simp] theorem memFlushTlb_lastFault (s : State) : (memFlushTlb s).lastFault = s.lastFault := rfl
@[simp] theorem memFlushTlb_port (s : State) : (memFlushTlb s).port = { s.port with flushes := s.port.flushes + 1 } := rfl
@[simp] theorem memFlushTlb_build (s : State) : (memFlushTlb s).build = s.build := rfl
@[simp] theorem memFlushTlb_batch (s : State) : (memFlushTlb s).batch = s.batch := rfl
@[simp] theorem memFlushTlb_traceOut (s : State) : (memFlushTlb s).traceOut = s.traceOut := rfl
@[simp] theorem memFlushTlb_harness (s : State) : (memFlushTlb s).harness = s.harness := rfl

/-! ### statusWrite -/

@[simp] theorem statusWrite_core (v : IWord) (s : State) : (statusWrite v s).core = { s.core with status := maskStatus s.build v } := rfl
@[simp] theorem statusWrite_lanes (v : IWord) (s : State) : (statusWrite v s).lanes = s.lanes := rfl
@[simp] theorem statusWrite_mem (v : IWord) (s : State) : (statusWrite v s).mem = s.mem := rfl
@[simp] theorem statusWrite_memSize (v : IWord) (s : State) : (statusWrite v s).memSize = s.memSize := rfl
@[simp] theorem statusWrite_lastFault (v : IWord) (s : State) : (statusWrite v s).lastFault = s.lastFault := rfl
@[simp] theorem statusWrite_port (v : IWord) (s : State) : (statusWrite v s).port = { vm := statusVM (maskStatus s.build v), sup := statusS (maskStatus s.build v), notifies := s.port.notifies + 1, flushes := s.port.flushes + 1 } := rfl
@[simp] theorem statusWrite_build (v : IWord) (s : State) : (statusWrite v s).build = s.build := rfl
@[simp] theorem statusWrite_batch (v : IWord) (s : State) : (statusWrite v s).batch = s.batch := rfl
@[simp] theorem statusWrite_traceOut (v : IWord) (s : State) : (statusWrite v s).traceOut = s.traceOut := rfl
@[simp] theorem statusWrite_harness (v : IWord) (s : State) : (statusWrite v s).harness = s.harness := rfl

/-! ### resetAll -/

@[simp] theorem resetAll_core (s : State) : (resetAll s).core = s.core.resetTo s.build := rfl
@[simp] theorem resetAll_lanes (s : State) : (resetAll s).lanes = s.lanes.map (fun ls => ls.map (Proc.resetTo s.build)) := rfl
@[simp] theorem resetAll_mem (s : State) : (resetAll s).mem = s.mem := rfl
@[simp] theorem resetAll_memSize (s : State) : (resetAll s).memSize = s.memSize := rfl
@[simp] theorem resetAll_lastFault (s : State) : (resetAll s).lastFault = s.lastFault := rfl
@[simp] theorem resetAll_build (s : State) : (resetAll s).build = s.build := rfl
@[simp] theorem resetAll_batch (s : State) : (resetAll s).batch = s.batch := rfl
@[simp] theorem resetAll_traceOut (s : State) : (resetAll s).traceOut = s.traceOut := rfl
@[simp] theorem resetAll_harness (s : State) : (resetAll s).harness = s.harness := rfl

/-! ### stopBatch -/

@[simp] theorem stopBatch_core (s : State) : (stopBatch s).core = s.core := rfl
@[simp] theorem stopBatch_lanes (s : State) : (stopBatch s).lanes = s.lanes := rfl
@[simp] theorem stopBatch_mem (s : State) : (stopBatch s).mem = s.mem := rfl
@[simp] theorem stopBatch_memSize (s : State) : (stopBatch s).memSize = s.memSize := rfl
@[simp] theorem stopBatch_lastFault (s : State) : (stopBatch s).lastFault = s.lastFault := rfl
@[simp] theorem stopBatch_port (s : State) : (stopBatch s).port = s.port := rfl
@[simp] theorem stopBatch_build (s : State) : (stopBatch s).build = s.build := rfl
@[simp] theorem stopBatch_batch (s : State) : (stopBatch s).batch = s.batch.map (fun b => { b with stopped := true }) := rfl
@[simp] theorem stopBatch_traceOut (s : State) : (stopBatch s).traceOut = s.traceOut := rfl
@[simp] theorem stopBatch_harness (s : State) : (stopBatch s).harness = s.harness := rfl

/-! ### enterTrap -/

@[simp] theorem enterTrap_lanes (code : Nat) (s : State) : (enterTrap code s).lanes = s.lanes := rfl
@[simp] theorem enterTrap_mem (code : Nat) (s : State) : (enterTrap code s).mem = s.mem := rfl
@[simp] theorem enterTrap_memSize (code : Nat) (s : State) : (enterTrap code s).memSize = s.memSize := rfl
@[simp] theorem enterTrap_lastFault (code : Nat) (s : State) : (enterTrap code s).lastFault = s.lastFault := rfl
@[simp] theorem enterTrap_build (code : Nat) (s : State) : (enterTrap code s).build = s.build := rfl
@[simp] theorem enterTrap_batch (code : Nat) (s : State) : (enterTrap code s).batch = s.batch := rfl
@[simp] theorem enterTrap_traceOut (code : Nat) (s : State) : (enterTrap code s).traceOut = s.traceOut := rfl
@[simp] theorem enterTrap_harness (code : Nat) (s : State) : (enterTrap code s).harness = s.harness := rfl

/-! ### xWrite -/

@[simp] theorem xWrite_x (i : Reg) (v : Word) (p : Proc) : (p.xWrite i v).x = p.x.set i.val v := rfl
@[simp] theorem xWrite_f (i : Reg) (v : Word) (p : Proc) : (p.xWrite i v).f = p.f := rfl
@[simp] theorem xWrite_pc (i : Reg) (v : Word) (p : Proc) : (p.xWrite i v).pc = p.pc := rfl
@[simp] theorem xWrite_evec (i : Reg) (v : Word) (p : Proc) : (p.xWrite i v).evec = p.evec := rfl
@[simp] theorem xWrite_epc (i : Reg) (v : Word) (p : Proc) : (p.xWrite i v).epc = p.epc := rfl
@[simp] theorem xWrite_badvaddr (i : Reg) (v : Word) (p : Proc) : (p.xWrite i v).badvaddr = p.badvaddr := rfl
@[simp] theorem xWrite_k0 (i : Reg) (v : Word) (p : Proc) : (p.xWrite i v).k0 = p.k0 := rfl
@[simp] theorem xWrite_k1 (i : Reg) (v : Word) (p : Proc) : (p.xWrite i v).k1 = p.k1 := rfl
@[simp] theorem xWrite_tohost (i : Reg) (v : Word) (p : Proc) : (p.xWrite i v).tohost = p.tohost := rfl
@[simp] theorem xWrite_fromhost (i : Reg) (v : Word) (p : Proc) : (p.xWrite i v).fromhost = p.fromhost := rfl
@[simp] theorem xWrite_status (i : Reg) (v : Word) (p : Proc) : (p.xWrite i v).status = p.status := rfl
@[simp] theorem xWrite_cause (i : Reg) (v : Word) (p : Proc) : (p.xWrite i v).cause = p.cause := rfl
@[simp] theorem xWrite_fsr (i : Reg) (v : Word) (p : Proc) : (p.xWrite i v).fsr = p.fsr := rfl
@[simp] theorem xWrite_count (i : Reg) (v : Word) (p : Proc) : (p.xWrite i v).count = p.count := rfl
@[simp] theorem xWrite_compare (i : Reg) (v : Word) (p : Proc) : (p.xWrite i v).compare = p.compare := rfl
@[simp] theorem xWrite_laneMask (i : Reg) (v : Word) (p : Proc) : (p.xWrite i v).laneMask = p.laneMask := rfl
@[simp] theorem xWrite_laneCount (i : Reg) (v : Word) (p : Proc) : (p.xWrite i v).laneCount = p.laneCount := rfl
@[simp] theorem xWrite_nxprUse (i : Reg) (v : Word) (p : Proc) : (p.xWrite i v).nxprUse = p.nxprUse := rfl
@[simp] theorem xWrite_nfprUse (i : Reg) (v : Word) (p : Proc) : (p.xWrite i v).nfprUse = p.nfprUse := rfl
@[simp] theorem xWrite_vlmax (i : Reg) (v : Word) (p : Proc) : (p.xWrite i v).vlmax = p.vlmax := rfl
@[simp] theorem xWrite_vl (i : Reg) (v : Word) (p : Proc) : (p.xWrite i v).vl = p.vl := rfl
@[simp] theorem xWrite_run (i : Reg) (v : Word) (p : Proc) : (p.xWrite i v).run = p.run := rfl
@[simp] theorem xWrite_laneIndex (i : Reg) (v : Word) (p : Proc) : (p.xWrite i v).laneIndex = p.laneIndex := rfl
@[simp] theorem xWrite_coreId (i : Reg) (v : Word) (p : Proc) : (p.xWrite i v).coreId = p.coreId := rfl

/-! ### fWrite -/

@[simp] theorem fWrite_x (i : Reg) (v : Word) (p : Proc) : (p.fWrite i v).x = p.x := rfl
@[simp] theorem fWrite_f (i : Reg) (v : Word) (p : Proc) : (p.fWrite i v).f = p.f.set i.val v := rfl
@[simp] theorem fWrite_pc (i : Reg) (v : Word) (p : Proc) : (p.fWrite i v).pc = p.pc := rfl
@[simp] theorem fWrite_evec (i : Reg) (v : Word) (p : Proc) : (p.fWrite i v).evec = p.evec := rfl
@[simp] theorem fWrite_epc (i : Reg) (v : Word) (p : Proc) : (p.fWrite i v).epc = p.epc := rfl
@[simp] theorem fWrite_badvaddr (i : Reg) (v : Word) (p : Proc) : (p.fWrite i v).badvaddr = p.badvaddr := rfl
@[simp] theorem fWrite_k0 (i : Reg) (v : Word) (p : Proc) : (p.fWrite i v).k0 = p.k0 := rfl
@[simp] theorem fWrite_k1 (i : Reg) (v : Word) (p : Proc) : (p.fWrite i v).k1 = p.k1 := rfl
@[simp] theorem fWrite_tohost (i : Reg) (v : Word) (p : Proc) : (p.fWrite i v).tohost = p.tohost := rfl
@[simp] theorem fWrite_fromhost (i : Reg) (v : Word) (p : Proc) : (p.fWrite i v).fromhost = p.fromhost := rfl
@[simp] theorem fWrite_status (i : Reg) (v : Word) (p : Proc) : (p.fWrite i v).status = p.status := rfl
@[simp] theorem fWrite_cause (i : Reg) (v : Word) (p : Proc) : (p.fWrite i v).cause = p.cause := rfl
@[simp] theorem fWrite_fsr (i : Reg) (v : Word) (p : Proc) : (p.fWrite i v).fsr = p.fsr := rfl
@[simp] theorem fWrite_count (i : Reg) (v : Word) (p : Proc) : (p.fWrite i v).count = p.count := rfl
@[simp] theorem fWrite_compare (i : Reg) (v : Word) (p : Proc) : (p.fWrite i v).compare = p.compare := rfl
@[simp] theorem fWrite_laneMask (i : Reg) (v : Word) (p : Proc) : (p.fWrite i v).laneMask = p.laneMask := rfl
@[simp] theorem fWrite_laneCount (i : Reg) (v : Word) (p : Proc) : (p.fWrite i v).laneCount = p.laneCount := rfl
@[simp] theorem fWrite_nxprUse (i : Reg) (v : Word) (p : Proc) : (p.fWrite i v).nxprUse = p.nxprUse := rfl
@[simp] theorem fWrite_nfprUse (i : Reg) (v : Word) (p : Proc) : (p.fWrite i v).nfprUse = p.nfprUse := rfl
@[simp] theorem fWrite_vlmax (i : Reg) (v : Word) (p : Proc) : (p.fWrite i v).vlmax = p.vlmax := rfl
@[simp] theorem fWrite_vl (i : Reg) (v : Word) (p : Proc) : (p.fWrite i v).vl = p.vl := rfl
@[simp] theorem fWrite_run (i : Reg) (v : Word) (p : Proc) : (p.fWrite i v).run = p.run := rfl
@[simp] theorem fWrite_laneIndex (i : Reg) (v : Word) (p : Proc) : (p.fWrite i v).laneIndex = p.laneIndex := rfl
@[simp] theorem fWrite_coreId (i : Reg) (v : Word) (p : Proc) : (p.fWrite i v).coreId = p.coreId := rfl

/-! ### setPc -/

@[simp] theorem setPc_x (v : Word) (p : Proc) : (p.setPc v).x = p.x := rfl
@[simp] theorem setPc_f (v : Word) (p : Proc) : (p.setPc v).f = p.f := rfl
@[simp] theorem setPc_pc (v : Word) (p : Proc) : (p.setPc v).pc = v := rfl
@[simp] theorem setPc_evec (v : Word) (p : Proc) : (p.setPc v).evec = p.evec := rfl
@[simp] theorem setPc_epc (v : Word) (p : Proc) : (p.setPc v).epc = p.epc := rfl
@[simp] theorem setPc_badvaddr (v : Word) (p : Proc) : (p.setPc v).badvaddr = p.badvaddr := rfl
@[simp] theorem setPc_k0 (v : Word) (p : Proc) : (p.setPc v).k0 = p.k0 := rfl
@[simp] theorem setPc_k1 (v : Word) (p : Proc) : (p.setPc v).k1 = p.k1 := rfl
@[simp] theorem setPc_tohost (v : Word) (p : Proc) : (p.setPc v).tohost = p.tohost := rfl
@[simp] theorem setPc_fromhost (v : Word) (p : Proc) : (p.setPc v).fromhost = p.fromhost := rfl
@[simp] theorem setPc_status (v : Word) (p : Proc) : (p.setPc v).status = p.status := rfl
@[simp] theorem setPc_cause (v : Word) (p : Proc) : (p.setPc v).cause = p.cause := rfl
@[simp] theorem setPc_fsr (v : Word) (p : Proc) : (p.setPc v).fsr = p.fsr := rfl
@[simp] theorem setPc_count (v : Word) (p : Proc) : (p.setPc v).count = p.count := rfl
@[simp] theorem setPc_compare (v : Word) (p : Proc) : (p.setPc v).compare = p.compare := rfl
@[simp] theorem setPc_laneMask (v : Word) (p : Proc) : (p.setPc v).laneMask = p.laneMask := rfl
@[simp] theorem setPc_laneCount (v : Word) (p : Proc) : (p.setPc v).laneCount = p.laneCount := rfl
@[simp] theorem setPc_nxprUse (v : Word) (p : Proc) : (p.setPc v).nxprUse = p.nxprUse := rfl
@[simp] theorem setPc_nfprUse (v : Word) (p : Proc) : (p.setPc v).nfprUse = p.nfprUse := rfl
@[simp] theorem setPc_vlmax (v : Word) (p : Proc) : (p.setPc v).vlmax = p.vlmax := rfl
@[simp] theorem setPc_vl (v : Word) (p : Proc) : (p.setPc v).vl = p.vl := rfl
@[simp] theorem setPc_run (v : Word) (p : Proc) : (p.setPc v).run = p.run := rfl
@[simp] theorem setPc_laneIndex (v : Word) (p : Proc) : (p.setPc v).laneIndex = p.laneIndex := rfl
@[simp] theorem setPc_coreId (v : Word) (p : Proc) : (p.setPc v).coreId = p.coreId := rfl

/-! ### recomputeVlmax -/

@[simp] theorem recomputeVlmax_x (p : Proc) : (p.recomputeVlmax).x = p.x := rfl
@[simp] theorem recomputeVlmax_f (p : Proc) : (p.recomputeVlmax).f = p.f := rfl
@[simp] theorem recomputeVlmax_pc (p : Proc) : (p.recomputeVlmax).pc = p.pc := rfl
@[simp] theorem recomputeVlmax_evec (p : Proc) : (p.recomputeVlmax).evec = p.evec := rfl
@[simp] theorem recomputeVlmax_epc (p : Proc) : (p.recomputeVlmax).epc = p.epc := rfl
@[simp] theorem recomputeVlmax_badvaddr (p : Proc) : (p.recomputeVlmax).badvaddr = p.badvaddr := rfl
@[simp] theorem recomputeVlmax_k0 (p : Proc) : (p.recomputeVlmax).k0 = p.k0 := rfl
@[simp] theorem recomputeVlmax_k1 (p : Proc) : (p.recomputeVlmax).k1 = p.k1 := rfl
@[simp] theorem recomputeVlmax_tohost (p : Proc) : (p.recomputeVlmax).tohost = p.tohost := rfl
@[simp] theorem recomputeVlmax_fromhost (p : Proc) : (p.recomputeVlmax).fromhost = p.fromhost := rfl
@[simp] theorem recomputeVlmax_status (p : Proc) : (p.recomputeVlmax).status = p.status := rfl
@[simp] theorem recomputeVlmax_cause (p : Proc) : (p.recomputeVlmax).cause = p.cause := rfl
@[simp] theorem recomputeVlmax_fsr (p : Proc) : (p.recomputeVlmax).fsr = p.fsr := rfl
@[simp] theorem recomputeVlmax_count (p : Proc) : (p.recomputeVlmax).count = p.count := rfl
@[simp] theorem recomputeVlmax_compare (p : Proc) : (p.recomputeVlmax).compare = p.compare := rfl
@[simp] theorem recomputeVlmax_laneMask (p : Proc) : (p.recomputeVlmax).laneMask = p.laneMask := rfl
@[simp] theorem recomputeVlmax_laneCount (p : Proc) : (p.recomputeVlmax).laneCount = p.laneCount := rfl
@[simp] theorem recomputeVlmax_nxprUse (p : Proc) : (p.recomputeVlmax).nxprUse = p.nxprUse := rfl
@[simp] theorem recomputeVlmax_nfprUse (p : Proc) : (p.recomputeVlmax).nfprUse = p.nfprUse := rfl
@[simp] theorem recomputeVlmax_vl (p : Proc) : (p.recomputeVlmax).vl = minWord p.vl p.recomputeVlmax.vlmax := rfl
@[simp] theorem recomputeVlmax_run (p : Proc) : (p.recomputeVlmax).run = p.run := rfl
@[simp] theorem recomputeVlmax_laneIndex (p : Proc) : (p.recomputeVlmax).laneIndex = p.laneIndex := rfl
@[simp] theorem recomputeVlmax_coreId (p : Proc) : (p.recomputeVlmax).coreId = p.coreId := rfl

/-! ### setVl -/

@[simp] theorem setVl_x (r : Word) (p : Proc) : (p.setVl r).x = p.x := rfl
@[simp] theorem setVl_f (r : Word) (p : Proc) : (p.setVl r).f = p.f := rfl
@[simp] theorem setVl_pc (r : Word) (p : Proc) : (p.setVl r).pc = p.pc := rfl
@[simp] theorem setVl_evec (r : Word) (p : Proc) : (p.setVl r).evec = p.evec := rfl
@[simp] theorem setVl_epc (r : Word) (p : Proc) : (p.setVl r).epc = p.epc := rfl
@[simp] theorem setVl_badvaddr (r : Word) (p : Proc) : (p.setVl r).badvaddr = p.badvaddr := rfl
@[simp] theorem setVl_k0 (r : Word) (p : Proc) : (p.setVl r).k0 = p.k0 := rfl
@[simp] theorem setVl_k1 (r : Word) (p : Proc) : (p.setVl r).k1 = p.k1 := rfl
@[simp] theorem setVl_tohost (r : Word) (p : Proc) : (p.setVl r).tohost = p.tohost := rfl
@[simp] theorem setVl_fromhost (r : Word) (p : Proc) : (p.setVl r).fromhost = p.fromhost := rfl
@[simp] theorem setVl_status (r : Word) (p : Proc) : (p.setVl r).status = p.status := rfl
@[simp] theorem setVl_cause (r : Word) (p : Proc) : (p.setVl r).cause = p.cause := rfl
@[simp] theorem setVl_fsr (r : Word) (p : Proc) : (p.setVl r).fsr = p.fsr := rfl
@[simp] theorem setVl_count (r : Word) (p : Proc) : (p.setVl r).count = p.count := rfl
@[simp] theorem setVl_compare (r : Word) (p : Proc) : (p.setVl r).compare = p.compare := rfl
@[simp] theorem setVl_laneMask (r : Word) (p : Proc) : (p.setVl r).laneMask = p.laneMask := rfl
@[simp] theorem setVl_laneCount (r : Word) (p : Proc) : (p.setVl r).laneCount = p.laneCount := rfl
@[simp] theorem setVl_nxprUse (r : Word) (p : Proc) : (p.setVl r).nxprUse = p.nxprUse := rfl
@[simp] theorem setVl_nfprUse (r : Word) (p : Proc) : (p.setVl r).nfprUse = p.nfprUse := rfl
@[simp] theorem setVl_vlmax (r : Word) (p : Proc) : (p.setVl r).vlmax = p.vlmax := rfl
@[simp] theorem setVl_vl (r : Word) (p : Proc) : (p.setVl r).vl = minWord r p.vlmax := rfl
@[simp] theorem setVl_run (r : Word) (p : Proc) : (p.setVl r).run = p.run := rfl
@[simp] theorem setVl_laneIndex (r : Word) (p : Proc) : (p.setVl r).laneIndex = p.laneIndex := rfl
@[simp] theorem setVl_coreId (r : Word) (p : Proc) : (p.setVl r).coreId = p.coreId := rfl

/-! ### vcfg -/

@[simp] theorem vcfg_x (nx nf : Word) (p : Proc) : (p.vcfg nx nf).x = p.x := rfl
@[simp] theorem vcfg_f (nx nf : Word) (p : Proc) : (p.vcfg nx nf).f = p.f := rfl
@[simp] theorem vcfg_pc (nx nf : Word) (p : Proc) : (p.vcfg nx nf).pc = p.pc := rfl
@[simp] theorem vcfg_evec (nx nf : Word) (p : Proc) : (p.vcfg nx nf).evec = p.evec := rfl
@[simp] theorem vcfg_epc (nx nf : Word) (p : Proc) : (p.vcfg nx nf).epc = p.epc := rfl
@[simp] theorem vcfg_badvaddr (nx nf : Word) (p : Proc) : (p.vcfg nx nf).badvaddr = p.badvaddr := rfl
@[simp] theorem vcfg_k0 (nx nf : Word) (p : Proc) : (p.vcfg nx nf).k0 = p.k0 := rfl
@[simp] theorem vcfg_k1 (nx nf : Word) (p : Proc) : (p.vcfg nx nf).k1 = p.k1 := rfl
@[simp] theorem vcfg_tohost (nx nf : Word) (p : Proc) : (p.vcfg nx nf).tohost = p.tohost := rfl
@[simp] theorem vcfg_fromhost (nx nf : Word) (p : Proc) : (p.vcfg nx nf).fromhost = p.fromhost := rfl
@[simp] theorem vcfg_status (nx nf : Word) (p : Proc) : (p.vcfg nx nf).status = p.status := rfl
@[simp] theorem vcfg_cause (nx nf : Word) (p : Proc) : (p.vcfg nx nf).cause = p.cause := rfl
@[simp] theorem vcfg_fsr (nx nf : Word) (p : Proc) : (p.vcfg nx nf).fsr = p.fsr := rfl
@[simp] theorem vcfg_count (nx nf : Word) (p : Proc) : (p.vcfg nx nf).count = p.count := rfl
@[simp] theorem vcfg_compare (nx nf : Word) (p : Proc) : (p.vcfg nx nf).compare = p.compare := rfl
@[simp] theorem vcfg_laneMask (nx nf : Word) (p : Proc) : (p.vcfg nx nf).laneMask = p.laneMask := rfl
@[simp] theorem vcfg_laneCount (nx nf : Word) (p : Proc) : (p.vcfg nx nf).laneCount = p.laneCount := rfl
@[simp] theorem vcfg_nxprUse (nx nf : Word) (p : Proc) : (p.vcfg nx nf).nxprUse = nx := rfl
@[simp] theorem vcfg_nfprUse (nx nf : Word) (p : Proc) : (p.vcfg nx nf).nfprUse = nf := rfl
@[simp] theorem vcfg_vl (nx nf : Word) (p : Proc) : (p.vcfg nx nf).vl = minWord p.vl (p.vcfg nx nf).vlmax := rfl
@[simp] theorem vcfg_run (nx nf : Word) (p : Proc) : (p.vcfg nx nf).run = p.run := rfl
@[simp] theorem vcfg_laneIndex (nx nf : Word) (p : Proc) : (p.vcfg nx nf).laneIndex = p.laneIndex := rfl
@[simp] theorem vcfg_coreId (nx nf : Word) (p : Proc) : (p.vcfg nx nf).coreId = p.coreId := rfl

/-! ### setLaneMask -/

@[simp] theorem setLaneMask_x (v : Word) (p : Proc) : (p.setLaneMask v).x = p.x := rfl
@[simp] theorem setLaneMask_f (v : Word) (p : Proc) : (p.setLaneMask v).f = p.f := rfl
@[simp] theorem setLaneMask_pc (v : Word) (p : Proc) : (p.setLaneMask v).pc = p.pc := rfl
@[simp] theorem setLaneMask_evec (v : Word) (p : Proc) : (p.setLaneMask v).evec = p.evec := rfl
@[simp] theorem setLaneMask_epc (v : Word) (p : Proc) : (p.setLaneMask v).epc = p.epc := rfl
@[simp] theorem setLaneMask_badvaddr (v : Word) (p : Proc) : (p.setLaneMask v).badvaddr = p.badvaddr := rfl
@[simp] theorem setLaneMask_k0 (v : Word) (p : Proc) : (p.setLaneMask v).k0 = p.k0 := rfl
@[simp] theorem setLaneMask_k1 (v : Word) (p : Proc) : (p.setLaneMask v).k1 = p.k1 := rfl
@[simp] theorem setLaneMask_tohost (v : Word) (p : Proc) : (p.setLaneMask v).tohost = p.tohost := rfl
@[simp] theorem setLaneMask_fromhost (v : Word) (p : Proc) : (p.setLaneMask v).fromhost = p.fromhost := rfl
@[simp] theorem setLaneMask_status (v : Word) (p : Proc) : (p.setLaneMask v).status = p.status := rfl
@[simp] theorem setLaneMask_cause (v : Word) (p : Proc) : (p.setLaneMask v).cause = p.cause := rfl
@[simp] theorem setLaneMask_fsr (v : Word) (p : Proc) : (p.setLaneMask v).fsr = p.fsr := rfl
@[simp] theorem setLaneMask_count (v : Word) (p : Proc) : (p.setLaneMask v).count = p.count := rfl
@[simp] theorem setLaneMask_compare (v : Word) (p : Proc) : (p.setLaneMask v).compare = p.compare := rfl
@[simp] theorem setLaneMask_laneMask (v : Word) (p : Proc) : (p.setLaneMask v).laneMask = v.setWidth 8 := rfl
@[simp] theorem setLaneMask_laneCount (v : Word) (p : Proc) : (p.setLaneMask v).laneCount = popcount (v.setWidth 8) := rfl
@[simp] theorem setLaneMask_nxprUse (v : Word) (p : Proc) : (p.setLaneMask v).nxprUse = p.nxprUse := rfl
@[simp] theorem setLaneMask_nfprUse (v : Word) (p : Proc) : (p.setLaneMask v).nfprUse = p.nfprUse := rfl
@[simp] theorem setLaneMask_vl (v : Word) (p : Proc) : (p.setLaneMask v).vl = minWord p.vl (p.setLaneMask v).vlmax := rfl
@[simp] theorem setLaneMask_run (v : Word) (p : Proc) : (p.setLaneMask v).run = p.run := rfl
@[simp] theorem setLaneMask_laneIndex (v : Word) (p : Proc) : (p.setLaneMask v).laneIndex = p.laneIndex := rfl
@[simp] theorem setLaneMask_coreId (v : Word) (p : Proc) : (p.setLaneMask v).coreId = p.coreId := rfl

/-! ### countUpdate -/

@[simp] theorem countUpdate_x (i : Nat) (p : Proc) : (p.countUpdate i).x = p.x := rfl
@[simp] theorem countUpdate_f (i : Nat) (p : Proc) : (p.countUpdate i).f = p.f := rfl
@[simp] theorem countUpdate_pc (i : Nat) (p : Proc) : (p.countUpdate i).pc = p.pc := rfl
@[simp] theorem countUpdate_evec (i : Nat) (p : Proc) : (p.countUpdate i).evec = p.evec := rfl
@[simp] theorem countUpdate_epc (i : Nat) (p : Proc) : (p.countUpdate i).epc = p.epc := rfl
@[simp] theorem countUpdate_badvaddr (i : Nat) (p : Proc) : (p.countUpdate i).badvaddr = p.badvaddr := rfl
@[simp] theorem countUpdate_k0 (i : Nat) (p : Proc) : (p.countUpdate i).k0 = p.k0 := rfl
@[simp] theorem countUpdate_k1 (i : Nat) (p : Proc) : (p.countUpdate i).k1 = p.k1 := rfl
@[simp] theorem countUpdate_tohost (i : Nat) (p : Proc) : (p.countUpdate i).tohost = p.tohost := rfl
@[simp] theorem countUpdate_fromhost (i : Nat) (p : Proc) : (p.countUpdate i).fromhost = p.fromhost := rfl
@[simp] theorem countUpdate_status (i : Nat) (p : Proc) : (p.countUpdate i).status = p.status := rfl
@[simp] theorem countUpdate_fsr (i : Nat) (p : Proc) : (p.countUpdate i).fsr = p.fsr := rfl
@[simp] theorem countUpdate_count (i : Nat) (p : Proc) : (p.countUpdate i).count = p.count + BitVec.ofNat 32 i := rfl
@[simp] theorem countUpdate_compare (i : Nat) (p : Proc) : (p.countUpdate i).compare = p.compare := rfl
@[simp] theorem countUpdate_laneMask (i : Nat) (p : Proc) : (p.countUpdate i).laneMask = p.laneMask := rfl
@[simp] theorem countUpdate_laneCount (i : Nat) (p : Proc) : (p.countUpdate i).laneCount = p.laneCount := rfl
@[simp] theorem countUpdate_nxprUse (i : Nat) (p : Proc) : (p.countUpdate i).nxprUse = p.nxprUse := rfl
@[simp] theorem countUpdate_nfprUse (i : Nat) (p : Proc) : (p.countUpdate i).nfprUse = p.nfprUse := rfl
@[simp] theorem countUpdate_vlmax (i : Nat) (p : Proc) : (p.countUpdate i).vlmax = p.vlmax := rfl
@[simp] theorem countUpdate_vl (i : Nat) (p : Proc) : (p.countUpdate i).vl = p.vl := rfl
@[simp] theorem countUpdate_run (i : Nat) (p : Proc) : (p.countUpdate i).run = p.run := rfl
@[simp] theorem countUpdate_laneIndex (i : Nat) (p : Proc) : (p.countUpdate i).laneIndex = p.laneIndex := rfl
@[simp] theorem countUpdate_coreId (i : Nat) (p : Proc) : (p.countUpdate i).coreId = p.coreId := rfl

/-! ### The resets and the trap entry -/

@[simp] theorem resetTo_status (b : Build) (p : Proc) : (p.resetTo b).status = resetStatus b p.laneIndex := rfl
@[simp] theorem resetTo_laneIndex (b : Build) (p : Proc) : (p.resetTo b).laneIndex = p.laneIndex := rfl
@[simp] theorem resetTo_coreId (b : Build) (p : Proc) : (p.resetTo b).coreId = p.coreId := rfl
@[simp] theorem resetTo_run (b : Build) (p : Proc) : (p.resetTo b).run = false := rfl

@[simp] theorem enterTrap_core (code : Nat) (s : State) : (enterTrap code s).core =
    { s.core with status := maskStatus s.build (trapStatus s.core.status), epc := s.core.pc,
                  cause := trapCause code s.core.cause, badvaddr := s.lastFault, pc := s.core.evec } := rfl

/-! ### Emitting a trace line -/

@[simp] theorem emit_core (s : State) (l : TraceLine) : (s.emit l).core = s.core := by unfold State.emit; split <;> rfl
@[simp] theorem emit_lanes (s : State) (l : TraceLine) : (s.emit l).lanes = s.lanes := by unfold State.emit; split <;> rfl
@[simp] theorem emit_mem (s : State) (l : TraceLine) : (s.emit l).mem = s.mem := by unfold State.emit; split <;> rfl
@[simp] theorem emit_memSize (s : State) (l : TraceLine) : (s.emit l).memSize = s.memSize := by
  unfold State.emit; split <;> rfl
@[simp] theorem emit_lastFault (s : State) (l : TraceLine) : (s.emit l).lastFault = s.lastFault := by
  unfold State.emit; split <;> rfl
@[simp] theorem emit_port (s : State) (l : TraceLine) : (s.emit l).port = s.port := by unfold State.emit; split <;> rfl
@[simp] theorem emit_build (s : State) (l : TraceLine) : (s.emit l).build = s.build := by unfold State.emit; split <;> rfl
@[simp] theorem emit_batch (s : State) (l : TraceLine) : (s.emit l).batch = s.batch := by unfold State.emit; split <;> rfl
@[simp] theorem emit_harness (s : State) (l : TraceLine) : (s.emit l).harness = s.harness := by
  unfold State.emit; split <;> rfl

/-! ### Writes of the control-register port -/

@[simp] theorem writeCReg_lanes (r : CReg) (v : Word) (s : State) : (writeCReg r v s).lanes = s.lanes := by
  cases r <;> rfl
@[simp] theorem writeCReg_mem (r : CReg) (v : Word) (s : State) : (writeCReg r v s).mem = s.mem := by cases r <;> rfl
@[simp] theorem writeCReg_memSize (r : CReg) (v : Word) (s : State) : (writeCReg r v s).memSize = s.memSize := by
  cases r <;> rfl
@[simp] theorem writeCReg_lastFault (r : CReg) (v : Word) (s : State) : (writeCReg r v s).lastFault = s.lastFault := by
  cases r <;> rfl
@[simp] theorem writeCReg_build (r : CReg) (v : Word) (s : State) : (writeCReg r v s).build = s.build := by
  cases r <;> rfl
@[simp] theorem writeCReg_batch (r : CReg) (v : Word) (s : State) : (writeCReg r v s).batch = s.batch := by
  cases r <;> rfl
@[simp] theorem writeCReg_traceOut (r : CReg) (v : Word) (s : State) : (writeCReg r v s).traceOut = s.traceOut := by
  cases r <;> rfl
@[simp] theorem writeCReg_harness (r : CReg) (v : Word) (s : State) : (writeCReg r v s).harness = s.harness := by
  cases r <;> rfl
@[simp] theorem writeCReg_x (r : CReg) (v : Word) (s : State) : (writeCReg r v s).core.x = s.core.x := by cases r <;> rfl
@[simp] theorem writeCReg_pc (r : CReg) (v : Word) (s : State) : (writeCReg r v s).core.pc = s.core.pc := by
  cases r <;> rfl
@[simp] theorem writeCReg_run (r : CReg) (v : Word) (s : State) : (writeCReg r v s).core.run = s.core.run := by
  cases r <;> rfl
@[simp] theorem writeCReg_laneIndex (r : CReg) (v : Word) (s : State) :
    (writeCReg r v s).core.laneIndex = s.core.laneIndex := by cases r <;> rfl
@[simp] theorem writeCReg_coreId (r : CReg) (v : Word) (s : State) : (writeCReg r v s).core.coreId = s.core.coreId := by
  cases r <;> rfl

/-! ### Reading registers -/

@[simp] theorem xRead_xWrite (p : Proc) (i j : Reg) (v : Word) :
    (p.xWrite i v).xRead j = if j = i then v else p.xRead j := by
  simp only [Proc.xRead, Proc.xWrite, Vector.getElem_set, Fin.val_inj, eq_comm]

end Sys2Proof.Machine
end

