-- ==== Sys2Proof/Laws/Bits.lean ====
section
/-! SUPPORT. Bits: fields put into a word, and the masks of status, cause and fsr. -/

namespace Sys2Proof

/-- The bits of a field put into a wider vector. -/
theorem getLsbD_put {n : Nat} (m pos : Nat) (v : BitVec n) (i : Nat) :
    (put m pos v).getLsbD i = (decide (i < m) && decide (pos ≤ i) && v.getLsbD (i - pos)) := by
  simp only [put, BitVec.getLsbD_shiftLeft, BitVec.getLsbD_setWidth]
  by_cases h : i < m
  · by_cases h' : pos ≤ i
    · have h'' : i - pos < m := by omega
      simp [h, h', h'']
    · simp [h', Nat.lt_of_not_le h']
  · simp [h]

/-- The bits of a register number's field. -/
theorem regBits_toFin (v : BitVec 5) : regBits v.toFin = v := rfl

theorem toFin_regBits (r : Reg) : (regBits r).toFin = r := rfl

namespace Machine

/-- Masking a status word keeps the bits of one fixed word of the build. -/
theorem maskStatus_eq_and (b : Build) (v : IWord) : maskStatus b v = v &&& maskStatus b (BitVec.allOnes 32) := by
  obtain ⟨h1, h2, h3, h4⟩ := b
  cases h1 <;> cases h2 <;> cases h3 <;> cases h4 <;>
    simp [maskStatus, clearUnless, srWritable, BitVec.and_assoc]

/-- Masking a status word twice is masking it once (41_register_status.md R110, R114). -/
theorem maskStatus_maskStatus (b : Build) (v : IWord) : maskStatus b (maskStatus b v) = maskStatus b v := by
  rw [maskStatus_eq_and b (maskStatus b v), maskStatus_eq_and b v, BitVec.and_assoc, BitVec.and_self]

theorem maskCause_maskCause (v : IWord) : maskCause (maskCause v) = maskCause v := by
  simp [maskCause, BitVec.and_assoc]

theorem maskFsr_maskFsr (v : IWord) : maskFsr (maskFsr v) = maskFsr v := by
  simp [maskFsr, BitVec.and_assoc]

/-- A word inside the writable bits of cause, joined with another such word, stays inside. -/
theorem maskCause_or (a b : IWord) (ha : maskCause a = a) (hb : maskCause b = b) : maskCause (a ||| b) = a ||| b := by
  apply BitVec.eq_of_getLsbD_eq
  intro i _
  have h1 := congrArg (fun v : IWord => v.getLsbD i) ha
  have h2 := congrArg (fun v : IWord => v.getLsbD i) hb
  simp only [maskCause, BitVec.getLsbD_and, BitVec.getLsbD_or] at h1 h2 ⊢
  revert h1 h2
  cases a.getLsbD i <;> cases b.getLsbD i <;> cases causeWritable.getLsbD i <;> simp

theorem maskCause_and (a b : IWord) (ha : maskCause a = a) : maskCause (a &&& b) = a &&& b := by
  apply BitVec.eq_of_getLsbD_eq
  intro i _
  have h1 := congrArg (fun v : IWord => v.getLsbD i) ha
  simp only [maskCause, BitVec.getLsbD_and] at h1 ⊢
  revert h1
  cases a.getLsbD i <;> cases b.getLsbD i <;> cases causeWritable.getLsbD i <;> simp

theorem maskCause_trapCause (code : Nat) (c : IWord) (hc : code < 32) (h : maskCause c = c) :
    maskCause (trapCause code c) = trapCause code c := by
  refine maskCause_or _ _ (maskCause_and _ _ h) ?_
  interval_cases code <;> decide

theorem maskCause_raiseLine (k : Nat) (c : IWord) (hk : k < 8) (h : maskCause c = c) :
    maskCause (raiseLine k c) = raiseLine k c := by
  refine maskCause_or _ _ h ?_
  interval_cases k <;> decide

theorem maskCause_clearLine (k : Nat) (c : IWord) (h : maskCause c = c) : maskCause (clearLine k c) = clearLine k c :=
  maskCause_and _ _ h

/-- The status a reset leaves is one a status write could leave. -/
theorem maskStatus_resetStatus (b : Build) (o : Option Nat) : maskStatus b (resetStatus b o) = resetStatus b o := by
  cases o <;> exact maskStatus_maskStatus b _

/-- The bits of a masked status word (41_register_status.md R110). -/
theorem getLsbD_maskStatus (b : Build) (v : IWord) (k : Nat) :
    (maskStatus b v).getLsbD k = (v.getLsbD k && (decide (k ≤ 8) || (decide (16 ≤ k) && decide (k ≤ 23))) &&
      !((k == 1 && !b.haveFpu) || (k == 2 && !b.haveVec) || (k == 3 && !b.haveRvc) ||
        ((k == 6 || k == 7) && !b.have64))) := by
  by_cases h : k < 32
  · obtain ⟨h1, h2, h3, h4⟩ := b
    simp only [maskStatus, clearUnless, srWritable]
    interval_cases k <;> cases h1 <;> cases h2 <;> cases h3 <;> cases h4 <;> simp
  · rw [BitVec.getLsbD_of_ge _ _ (by omega), BitVec.getLsbD_of_ge _ _ (by omega)]
    simp

/-- The bits of a trap entry's status word (60_exceptions.md R256). -/
theorem getLsbD_trapStatus (st : IWord) (k : Nat) (hk : k < 32) :
    (trapStatus st).getLsbD k =
      (if k = 0 then false else if k = 4 then st.getLsbD 5 else if k = 5 then true else st.getLsbD k) := by
  simp only [trapStatus, flagAt, BitVec.getLsbD_or, BitVec.getLsbD_and, getLsbD_put, statusS]
  interval_cases k <;> simp

/-- The bits of a trap return's status word (60_exceptions.md R275). -/
theorem getLsbD_returnStatus (st : IWord) (k : Nat) (hk : k < 32) :
    (returnStatus st).getLsbD k = (if k = 0 then true else if k = 5 then st.getLsbD 4 else st.getLsbD k) := by
  simp only [returnStatus, flagAt, BitVec.getLsbD_or, BitVec.getLsbD_and, getLsbD_put, statusPS]
  interval_cases k <;> simp

/-- The smaller of two words is no larger than the second. -/
theorem minWord_le (a b : Word) : (minWord a b).toNat ≤ b.toNat := by
  unfold minWord
  split <;> omega

/-- The lowest set bit is a line number. -/
theorem lowestSet_lt (v : BitVec 8) (k : Nat) (h : lowestSet v = some k) : k < 8 :=
  List.mem_range.mp (List.mem_of_find?_eq_some h)

theorem takenLine_lt (st c : IWord) (k : Nat) (h : takenLine st c = some k) : k < 8 := by
  unfold takenLine at h
  split at h
  · exact lowestSet_lt _ _ h
  · cases h

/-- An interrupt is taken only with traps enabled (60_exceptions.md R260). -/
theorem takenLine_enabled (st c : IWord) (k : Nat) (h : takenLine st c = some k) : statusET st = true := by
  unfold takenLine at h
  split at h
  · assumption
  · cases h

end Machine
end Sys2Proof
end

