-- ==== Sys2Proof/Laws/Decode.lean ====
section
/-! SUPPORT. The bits each format fixes, and when one table entry's match shuts out another. -/

namespace Sys2Proof

/-- The opcode and funct3 of a format I or CR word (30_encoding.md R69). -/
theorem encodeI_fixed (imm : BitVec 12) (rs1 rd : Reg) (f : BitVec 3) (op : BitVec 7) :
    encodeI imm rs1 f rd op &&& 0x0000707F = put 32 12 f ||| put 32 0 op := by
  apply BitVec.eq_of_getLsbD_eq
  intro i hi
  simp only [encodeI, BitVec.getLsbD_and, BitVec.getLsbD_or, getLsbD_put]
  interval_cases i <;> simp

/-- The opcode, funct3 and funct7 of a format R word. -/
theorem encodeR_fixed (g : BitVec 7) (rs2 rs1 rd : Reg) (f : BitVec 3) (op : BitVec 7) :
    encodeR g rs2 rs1 f rd op &&& 0xFE00707F = put 32 25 g ||| put 32 12 f ||| put 32 0 op := by
  apply BitVec.eq_of_getLsbD_eq
  intro i hi
  simp only [encodeR, BitVec.getLsbD_and, BitVec.getLsbD_or, getLsbD_put]
  interval_cases i <;> simp

/-- The opcode and funct3 of a format S word. -/
theorem encodeS_fixed (imm : BitVec 12) (rs2 rs1 : Reg) (f : BitVec 3) (op : BitVec 7) :
    encodeS imm rs2 rs1 f op &&& 0x0000707F = put 32 12 f ||| put 32 0 op := by
  apply BitVec.eq_of_getLsbD_eq
  intro i hi
  simp only [encodeS, BitVec.getLsbD_and, BitVec.getLsbD_or, getLsbD_put, BitVec.getLsbD_extractLsb']
  interval_cases i <;> simp

/-- The opcode and funct3 of a format B word. -/
theorem encodeB_fixed (off : BitVec 13) (rs2 rs1 : Reg) (f : BitVec 3) (op : BitVec 7) :
    encodeB off rs2 rs1 f op &&& 0x0000707F = put 32 12 f ||| put 32 0 op := by
  apply BitVec.eq_of_getLsbD_eq
  intro i hi
  simp only [encodeB, BitVec.getLsbD_and, BitVec.getLsbD_or, getLsbD_put, BitVec.getLsbD_extractLsb']
  interval_cases i <;> simp

/-- The opcode of a format J word. -/
theorem encodeJ_fixed (off : BitVec 21) (rd : Reg) (op : BitVec 7) :
    encodeJ off rd op &&& 0x0000007F = put 32 0 op := by
  apply BitVec.eq_of_getLsbD_eq
  intro i hi
  simp only [encodeJ, BitVec.getLsbD_and, BitVec.getLsbD_or, getLsbD_put, BitVec.getLsbD_extractLsb']
  interval_cases i <;> simp

/-- A word that fits one entry does not fit another whose fixed bits differ where both masks look. -/
theorem not_fits_of_conflict {w m o m' o' : IWord} (h : w &&& m = o) (hc : o &&& m' ≠ o' &&& m) : w &&& m' ≠ o' := by
  intro h'
  apply hc
  rw [← h, ← h', BitVec.and_assoc, BitVec.and_assoc, BitVec.and_comm m m']

end Sys2Proof
end

