-- ==== Sys2Proof/Laws/Memory.lean ====
section
/-! SUPPORT. Memory operations keep the canonical form, every listed address stays below a bound, and a store reads
back and leaves every other address as it was. -/

namespace Sys2Proof.Machine

theorem Memory_cell_wf (a : Nat) (b : Byte) (rest : Memory) (h : rest.wf) (ha : ∀ c ∈ rest, a < c.1) :
    (Memory.cell a b rest).wf := by
  unfold Memory.cell
  split
  · exact h
  · next hb =>
    refine ⟨List.pairwise_cons.mpr ⟨ha, h.1⟩, ?_⟩
    intro c hc
    rcases List.mem_cons.mp hc with rfl | hc
    · exact hb
    · exact h.2 c hc

/-- The listed cells after a store are the old ones and perhaps the stored one. -/
theorem Memory_mem_write (m : Memory) (a : Nat) (b : Byte) (c : Host.Cell) (hc : c ∈ m.write a b) :
    c = (a, b) ∨ c ∈ m := by
  induction m with
  | nil =>
    simp only [Memory.write, Memory.cell] at hc
    split at hc <;> simp_all
  | cons d rest ih =>
    simp only [Memory.write, Memory.cell] at hc
    split at hc
    · split at hc <;> simp_all
    · split at hc
      · split at hc
        · exact .inr (List.mem_cons_of_mem _ hc)
        · rcases List.mem_cons.mp hc with h | h
          · exact .inl h
          · exact .inr (List.mem_cons_of_mem _ h)
      · rcases List.mem_cons.mp hc with h | h
        · exact .inr (h ▸ List.mem_cons_self)
        · exact (ih h).imp id (List.mem_cons_of_mem _)

/-- A store keeps the canonical form. -/
theorem Memory_write_wf (m : Memory) (a : Nat) (b : Byte) (h : m.wf) : (m.write a b).wf := by
  induction m with
  | nil => exact Memory_cell_wf a b [] h (by simp)
  | cons d rest ih =>
    have hrest : Memory.wf rest := ⟨(List.pairwise_cons.mp h.1).2, fun c hc => h.2 c (List.mem_cons_of_mem _ hc)⟩
    have hlow : ∀ c ∈ rest, d.1 < c.1 := (List.pairwise_cons.mp h.1).1
    simp only [Memory.write]
    split
    · next hlt =>
      refine Memory_cell_wf a b _ h ?_
      intro c hc
      rcases List.mem_cons.mp hc with rfl | hc
      · exact hlt
      · exact hlt.trans (hlow c hc)
    · split
      · next heq => exact Memory_cell_wf a b rest hrest (heq ▸ hlow)
      · next hge hne =>
        refine ⟨List.pairwise_cons.mpr ⟨?_, (ih hrest).1⟩, ?_⟩
        · intro c hc
          rcases Memory_mem_write rest a b c hc with rfl | hc
          · show d.1 < a
            omega
          · exact hlow c hc
        · intro c hc
          rcases List.mem_cons.mp hc with rfl | hc
          · exact h.2 _ List.mem_cons_self
          · exact (ih hrest).2 c hc

/-- A store of any width keeps the canonical form. -/
theorem Memory_writeLE_wf {w : Nat} (m : Memory) (a n : Nat) (v : BitVec w) (h : m.wf) : (m.writeLE a n v).wf := by
  induction n with
  | zero => exact h
  | succ n ih => exact Memory_write_wf _ _ _ ih

theorem Memory_write4_wf (m : Memory) (a : Nat) (v : IWord) (h : m.wf) : (m.write4 a v).wf :=
  Memory_writeLE_wf m a 4 v h

/-- A store below a bound keeps every listed address below it. -/
theorem Memory_write_below (m : Memory) (a n : Nat) (b : Byte) (ha : a < n) (h : ∀ c ∈ m, c.1 < n) :
    ∀ c ∈ m.write a b, c.1 < n := by
  intro c hc
  rcases Memory_mem_write m a b c hc with rfl | hc
  · exact ha
  · exact h c hc

theorem Memory_writeLE_below {w : Nat} (m : Memory) (a n b : Nat) (v : BitVec w) (ha : a + n ≤ b)
    (h : ∀ c ∈ m, c.1 < b) : ∀ c ∈ m.writeLE a n v, c.1 < b := by
  induction n with
  | zero => exact h
  | succ n ih => exact Memory_write_below _ _ _ _ (by omega) (ih (by omega))

/-- Reset memory is canonical. -/
theorem reset_mem_wf : State.reset.mem.wf := by decide

/-! ## Reading after a store -/

/-- An address nothing is listed at reads as the fill value. -/
theorem Memory_read_unlisted (m : Memory) (a : Nat) (h : ∀ c ∈ m, c.1 ≠ a) : m.read a = Config.memFill := by
  induction m with
  | nil => rfl
  | cons d rest ih =>
    simp only [Memory.read]
    rw [if_neg (h d List.mem_cons_self), ih (fun c hc => h c (List.mem_cons_of_mem _ hc))]

/-- A store leaves every other address as it was. -/
theorem Memory_read_write_other (m : Memory) (a c : Nat) (b : Byte) (h : c ≠ a) : (m.write a b).read c = m.read c := by
  induction m with
  | nil =>
    simp only [Memory.write, Memory.cell]
    split <;> simp [Memory.read, Ne.symm h]
  | cons d rest ih =>
    simp only [Memory.write, Memory.cell]
    split
    · split <;> simp [Memory.read, Ne.symm h]
    · split
      · next _ heq =>
        split <;> simp only [Memory.read]
        · rw [if_neg (by omega)]
        · rw [if_neg (Ne.symm h), if_neg (by omega)]
      · simp only [Memory.read, ih]

/-- A store in canonical memory reads back. -/
theorem Memory_read_write_same (m : Memory) (a : Nat) (b : Byte) (h : m.wf) : (m.write a b).read a = b := by
  induction m with
  | nil =>
    simp only [Memory.write, Memory.cell]
    split <;> simp_all [Memory.read]
  | cons d rest ih =>
    have hlow := (List.pairwise_cons.mp h.1).1
    have hrest : Memory.wf rest := ⟨(List.pairwise_cons.mp h.1).2, fun c hc => h.2 c (List.mem_cons_of_mem _ hc)⟩
    simp only [Memory.write, Memory.cell]
    split
    · next hlt =>
      split
      · next hb =>
        rw [Memory_read_unlisted _ _ fun c hc => ?_]
        · exact hb.symm
        · rcases List.mem_cons.mp hc with rfl | hc
          · omega
          · have := hlow c hc
            omega
      · simp [Memory.read]
    · split
      · next heq =>
        split
        · next hb =>
          rw [Memory_read_unlisted _ _ fun c hc => ?_]
          · exact hb.symm
          · have := hlow c hc
            omega
        · simp [Memory.read]
      · next hne =>
        simp only [Memory.read]
        rw [if_neg (by omega), ih hrest]

/-- The bits of a value read: bit `i` is a bit of byte `i / 8` (20_memory.md R46). -/
theorem getLsbD_readLE (m : Memory) (a n i : Nat) :
    (m.readLE a n).getLsbD i = (decide (i < 8 * n) && (m.read (a + i / 8)).getLsbD (i % 8)) := by
  induction n with
  | zero => simp [Memory.readLE]
  | succ n ih =>
    simp only [Memory.readLE, BitVec.getLsbD_or, getLsbD_put, Nat.sub_zero, Nat.zero_le, decide_true, Bool.and_true, ih]
    by_cases h : i < 8 * n
    · have h1 : i < 8 * (n + 1) := by omega
      have h2 : ¬ 8 * n ≤ i := by omega
      simp [h, h1, h2]
    · by_cases h1 : i < 8 * (n + 1)
      · have h2 : i / 8 = n := by omega
        have h3 : i % 8 = i - 8 * n := by omega
        have h4 : 8 * n ≤ i := by omega
        simp [h, h1, h2, h3, h4]
      · simp [h, h1]

/-- The word at an address, byte by byte, as the decoder composes it (20_memory.md R54). -/
theorem Memory_read4_eq (m : Memory) (a : Nat) :
    m.read4 a = wordOfBytes (m.read a) (m.read (a + 1)) (m.read (a + 2)) (m.read (a + 3)) := by
  apply BitVec.eq_of_getLsbD_eq
  intro i hi
  rw [show (m.read4 a).getLsbD i = _ from getLsbD_readLE m a 4 i]
  simp only [wordOfBytes, BitVec.getLsbD_or, getLsbD_put]
  interval_cases i <;> simp

end Sys2Proof.Machine
end

