-- ==== Sys2Proof/Laws/Ops.lean ====
section
/-! SUPPORT. One lemma per shared operation that says everything it can do; proofs cite these and do not unfold the
operation. -/

namespace Sys2Proof.Machine

/-! ## Memory accesses (20_memory.md R45, R54) -/

/-- An access of `n` bytes is refused, faults for alignment, faults for range, or is performed. -/
theorem checkAccess_cases (s : State) (n m o : Nat) (a : Word) :
    (s.port.vm = true ∧ checkAccess s n m o a = .refused .translation) ∨
    (s.port.vm = false ∧ a.toNat % n ≠ 0 ∧ checkAccess s n m o a = .fault m { s with lastFault := a }) ∨
    (s.port.vm = false ∧ a.toNat % n = 0 ∧ s.memSize < a.toNat + n ∧
      checkAccess s n m o a = .fault o { s with lastFault := a }) ∨
    (accessFits n s a ∧ checkAccess s n m o a = .ok ()) := by
  unfold checkAccess accessFits
  cases s.port.vm
  · by_cases hm : a.toNat % n = 0
    · by_cases hr : a.toNat + n > s.memSize
      · simp [hm, hr]
      · simp [hm, hr, Nat.le_of_not_lt hr]
    · simp [hm]
  · simp

theorem checkAccess_ok {s : State} {n : Nat} {a : Word} (m o : Nat) (h : accessFits n s a) :
    checkAccess s n m o a = .ok () := by
  obtain ⟨hv, hm, hr⟩ := h
  rcases checkAccess_cases s n m o a with ⟨h', _⟩ | ⟨_, h', _⟩ | ⟨_, _, h', _⟩ | ⟨_, h'⟩
  · rw [hv] at h'
    cases h'
  · exact absurd hm h'
  · omega
  · exact h'

/-- Inside memory and aligned, a fetch reads the word memory holds. -/
theorem memFetch_ok (s : State) (a : Word) (ec : Bool) (h : accessOk s a) :
    memFetch s a ec = .ok (s.mem.read4 a.toNat) := by
  simp only [memFetch, checkAccess_ok _ _ h]

/-- Inside memory and aligned, a load reads the bytes memory holds. -/
theorem memRead_ok (s : State) (a : Word) (n : Nat) (h : accessFits n s a) :
    memRead s a n = .ok (s.mem.readLE a.toNat n) := by
  simp only [memRead, checkAccess_ok _ _ h]

/-- Inside memory and aligned, a store writes the bytes and nothing else. -/
theorem memWrite_ok {w : Nat} (s : State) (a : Word) (n : Nat) (v : BitVec w) (h : accessFits n s a) :
    memWrite s a n v = .ok { s with mem := s.mem.writeLE a.toNat n v } := by
  simp only [memWrite, checkAccess_ok _ _ h]

/-- A fetch that answers a word was allowed; one that faults has only recorded the address. -/
theorem memFetch_cases (s : State) (a : Word) (ec : Bool) :
    (accessOk s a ∧ memFetch s a ec = .ok (s.mem.read4 a.toNat)) ∨
    (∃ c < 2, memFetch s a ec = .fault c { s with lastFault := a }) ∨
    memFetch s a ec = .refused .translation := by
  unfold memFetch
  rcases checkAccess_cases s 4 trapFetchMisaligned trapFetchAccess a with ⟨_, h⟩ | ⟨_, _, h⟩ | ⟨_, _, _, h⟩ | ⟨ha, h⟩
  · exact .inr (.inr (by rw [h]))
  · exact .inr (.inl ⟨trapFetchMisaligned, by decide, by rw [h]⟩)
  · exact .inr (.inl ⟨trapFetchAccess, by decide, by rw [h]⟩)
  · exact .inl ⟨ha, by rw [h]⟩

theorem memRead_cases (s : State) (a : Word) (n : Nat) :
    (accessFits n s a ∧ memRead s a n = .ok (s.mem.readLE a.toNat n)) ∨
    (∃ c < 12, memRead s a n = .fault c { s with lastFault := a }) ∨ memRead s a n = .refused .translation := by
  unfold memRead
  rcases checkAccess_cases s n trapLoadMisaligned trapLoadAccess a with ⟨_, h⟩ | ⟨_, _, h⟩ | ⟨_, _, _, h⟩ | ⟨ha, h⟩
  · exact .inr (.inr (by rw [h]))
  · exact .inr (.inl ⟨trapLoadMisaligned, by decide, by rw [h]⟩)
  · exact .inr (.inl ⟨trapLoadAccess, by decide, by rw [h]⟩)
  · exact .inl ⟨ha, by rw [h]⟩

theorem memWrite_cases {w : Nat} (s : State) (a : Word) (n : Nat) (v : BitVec w) :
    (accessFits n s a ∧ memWrite s a n v = .ok { s with mem := s.mem.writeLE a.toNat n v }) ∨
    (∃ c < 12, memWrite s a n v = .fault c { s with lastFault := a }) ∨
      memWrite s a n v = .refused .translation := by
  unfold memWrite
  rcases checkAccess_cases s n trapStoreMisaligned trapStoreAccess a with ⟨_, h⟩ | ⟨_, _, h⟩ | ⟨_, _, _, h⟩ | ⟨ha, h⟩
  · exact .inr (.inr (by rw [h]))
  · exact .inr (.inl ⟨trapStoreMisaligned, by decide, by rw [h]⟩)
  · exact .inr (.inl ⟨trapStoreAccess, by decide, by rw [h]⟩)
  · exact .inl ⟨ha, by rw [h]⟩

/-! ## Traps (60_exceptions.md R255, R256) -/

/-- Taking a trap: out of range, disabled, or the entry. -/
theorem deliverTrap_cases (code : Nat) (s : State) :
    (Config.numTraps ≤ code ∧ deliverTrap code s = .fault (.badTrapCode s.core.coreId code)) ∨
    (code < Config.numTraps ∧ statusET s.core.status = false ∧
      deliverTrap code s = .fault (.errorMode s.core.coreId code)) ∨
    (code < Config.numTraps ∧ statusET s.core.status = true ∧
      deliverTrap code s = .next (enterTrap code (s.emit (.trap s.core.coreId code s.core.pc)))) := by
  unfold deliverTrap
  by_cases hc : code ≥ Config.numTraps
  · exact .inl ⟨hc, by simp [hc]⟩
  · cases he : statusET s.core.status
    · exact .inr (.inl ⟨by omega, rfl, by simp [hc]⟩)
    · exact .inr (.inr ⟨by omega, rfl, by simp [hc]⟩)

/-- When taking a trap answers a next state, it is the entry. -/
theorem deliverTrap_next {code : Nat} {s t : State} (h : deliverTrap code s = .next t) :
    code < Config.numTraps ∧ statusET s.core.status = true ∧
      t = enterTrap code (s.emit (.trap s.core.coreId code s.core.pc)) := by
  rcases deliverTrap_cases code s with ⟨_, h'⟩ | ⟨_, _, h'⟩ | ⟨hc, he, h'⟩ <;> rw [h'] at h <;> cases h
  exact ⟨hc, he, rfl⟩

/-! ## The outcome of a handler (43_step_loop.md R177 to R182) -/

/-- The state in which a handler's outcome is acted on: register 0 cleared. -/
def cleared (s : State) : State := s.onCore (fun p => p.xWrite 0 0)

theorem finish_next (npc : Word) (s : State) :
    finish (.next npc) s = .next ((cleared s).onCore (fun p => p.setPc npc)) := rfl
theorem finish_fault (code : Nat) (s : State) : finish (.fault code) s = deliverTrap code (cleared s) := rfl
theorem finish_stop (s : State) : finish .stop s = .next (stopBatch (cleared s)) := rfl
theorem finish_vtOther (s : State) : finish .vtOther s = .next (cleared s) := rfl
theorem finish_halt (s : State) : finish .halt s = .next (haltCore (cleared s)) := rfl
theorem finishReg_eq (rd : Reg) (v : Word) (s : State) :
    finishReg rd v s =
      .next (s.onCore (fun p => ((p.xWrite rd v).xWrite 0 0).setPc s.core.pcNext)) := rfl

/-! ## The control-register port (41_register_status.md R104) -/

/-- A write by number either finds no register or is the write of the register it names. -/
theorem crWrite_cases (n : Nat) (v : Word) (s : State) :
    (CReg.ofNumber n = none ∧ crWrite n v s = none) ∨
    (∃ r, CReg.ofNumber n = some r ∧ crWrite n v s = some (writeCReg r v s)) := by
  unfold crWrite
  cases h : CReg.ofNumber n
  · exact .inl ⟨rfl, rfl⟩
  · exact .inr ⟨_, rfl, rfl⟩

/-! ## The end of a slot and of a batch (43_step_loop.md R170, R183) -/

/-- A slot's end: no batch, one more slot counted, or the batch over with its count update. -/
theorem endSlot_cases (s : State) :
    (s.batch = none ∧ endSlot s = s) ∨
    (∃ b, s.batch = some b ∧ b.stopped = false ∧ b.used + 1 < b.limit ∧
      endSlot s = { s with batch := some { b with used := b.used + 1 } }) ∨
    (∃ b, s.batch = some b ∧ (b.stopped = true ∨ b.limit ≤ b.used + 1) ∧
      endSlot s = { s.onCore (Proc.countUpdate (b.used + 1)) with batch := none }) := by
  unfold endSlot
  cases hb : s.batch with
  | none => exact .inl ⟨rfl, rfl⟩
  | some b =>
    refine .inr ?_
    by_cases ho : b.stopped = true ∨ b.limit ≤ b.used + 1
    · refine .inr ⟨b, rfl, ho, ?_⟩
      have : Batch.over { b with used := b.used + 1 } = true := by simpa [Batch.over] using ho
      simp only [this, if_true]
    · refine .inl ⟨b, rfl, by simpa using fun h => ho (.inl h), by omega, ?_⟩
      have : Batch.over { b with used := b.used + 1 } = false := by
        simp only [not_or] at ho
        simp [Batch.over, ho.1, ho.2]
      simp only [this, Bool.false_eq_true, if_false]

/-- A slot answers a next state exactly when its body does. -/
theorem afterSlot_next {o : Out} {t : State} (h : afterSlot o = .next t) : ∃ u, o = .next u ∧ t = endSlot u := by
  cases o with
  | next u => exact ⟨u, rfl, by simpa [afterSlot] using h.symm⟩
  | fault r => cases h
  | refused r => cases h

/-- The body of a slot over the fixture memory: an interrupt, a fetch fault, a refused fetch, or a word dispatched
(43_step_loop.md R172). -/
theorem slotBody_cases (sys : System) (hm : sys.memory = fixtureMemory) (s : State) :
    (∃ k < 8, takenLine s.core.status s.core.cause = some k ∧
      slotBody sys s = deliverTrap (Config.intBase + k) s) ∨
    (takenLine s.core.status s.core.cause = none ∧
      ((∃ c < 2, slotBody sys s = deliverTrap c { s with lastFault := s.core.pc }) ∨
       slotBody sys s = .refused .translation ∨
       (accessOk s s.core.pc ∧ slotBody sys s = runWord sys.dispatch (s.mem.read4 s.core.pc.toNat) s))) := by
  cases ht : takenLine s.core.status s.core.cause with
  | some k =>
    refine .inl ⟨k, takenLine_lt _ _ _ ht, rfl, ?_⟩
    simp only [slotBody, ht]
  | none =>
    refine .inr ⟨rfl, ?_⟩
    have hf : sys.memory.fetch = memFetch := by rw [hm]; rfl
    rcases memFetch_cases s s.core.pc (statusEC s.core.status) with ⟨ha, h⟩ | ⟨c, hc, h⟩ | h
    · exact .inr (.inr ⟨ha, by simp only [slotBody, ht, hf, h]⟩)
    · exact .inl ⟨c, hc, by simp only [slotBody, ht, hf, h]⟩
    · exact .inr (.inl (by simp only [slotBody, ht, hf, h]))

/-- Dispatching a word: its handler runs, or it is an illegal instruction (43_step_loop.md R176). -/
theorem runWord_fixture (w : IWord) (s : State) :
    (∃ i, decodeWord w = some i ∧
      runWord fixtureSystem.dispatch w s = exec i (s.emit (.fetched s.core.coreId s.core.pc w))) ∨
    (decodeWord w = none ∧
      runWord fixtureSystem.dispatch w s = deliverTrap trapIllegal (s.emit (.fetched s.core.coreId s.core.pc w))) := by
  have e : fixtureSystem.dispatch w = (decodeWord w).map exec := rfl
  unfold runWord
  rw [e]
  cases h : decodeWord w with
  | some i => exact .inl ⟨i, rfl, rfl⟩
  | none => exact .inr ⟨rfl, rfl⟩

/-! ## Lanes (42_vector_lanes.md R151) -/

/-- An operation on a lane either finds no lane or runs on the lane's own view of the machine. -/
theorem onLane_next {k : Nat} {op : State → Out} {s t : State} (h : onLane k op s = .next t) :
    ∃ lane u, laneAt k s = some lane ∧ op (focusLane lane s) = .next u ∧ t = unfocusLane k s u := by
  unfold onLane at h
  cases hl : laneAt k s with
  | none => rw [hl] at h; cases h
  | some lane =>
    rw [hl] at h
    cases ho : op (focusLane lane s) with
    | next u => exact ⟨lane, u, rfl, ho, by simpa [ho] using h.symm⟩
    | fault r => simp [ho] at h
    | refused r => simp [ho] at h

/-- A lane has no lane array: an operation on a lane of a lane is refused, whatever it is (93_implementation_defined.md
U14). -/
theorem onLane_focusLane (k : Nat) (op : State → Out) (lane : Proc) (s : State) :
    onLane k op (focusLane lane s) = .refused (.noSuchLane k) := rfl

/-- So what a lane's handlers would dispatch a nested lane's words with makes no difference. -/
theorem runLane_focusLane (sys : System) (k : Nat) (a : Word) (n : Nat) (lane : Proc) (s : State) :
    runLane sys k a n (focusLane lane s) = .refused (.noSuchLane k) := rfl

/-! ## The answer of a handler of any table (00_scope.md R4) -/

/-- A table's dispatch acts on the answer of the first matching entry's handler, or is illegal. -/
theorem tableSystem_dispatch (c : Collaborator) (ot : List (Entry Handler)) (w : IWord) :
    (tableSystem c ot).dispatch w = (decodeIn ot w).map (fun h s => finishAns s (h (laneSystem c ot) w s)) := rfl

theorem finishAns_next (s t : State) (npc : Word) : finishAns s (.next (t, .next npc)) = finish (.next npc) t := rfl
theorem finishAns_fault (s : State) (r : Fault) : finishAns s (.fault r) = .fault r := rfl
theorem finishAns_refused (s : State) (r : Refusal) : finishAns s (.refused r) = .refused r := rfl

/-- A handler that met its obligation has its outcome acted on, whatever the outcome. -/
theorem finishAns_kept {s t : State} (o : HandlerOut) (h : registersKept s t) :
    finishAns s (.next (t, o)) = finish o t := by
  cases o with
  | next npc => rfl
  | fault code => exact if_pos h
  | stop => exact if_pos h
  | vtOther => exact if_pos h
  | halt => exact if_pos h

/-- One that broke it is refused, unless it returned `Next`. -/
theorem finishAns_broken {s t : State} (o : HandlerOut) (ho : ∀ npc, o ≠ .next npc) (h : ¬ registersKept s t) :
    finishAns s (.next (t, o)) = .refused .handlerObligation := by
  cases o with
  | next npc => exact absurd rfl (ho npc)
  | fault code => exact if_neg h
  | stop => exact if_neg h
  | vtOther => exact if_neg h
  | halt => exact if_neg h

end Sys2Proof.Machine
end

