-- ==== Sys2Proof/Laws/Exec.lean ====
section
/-! SUPPORT. What every instruction and every slot leaves alone outside the processor state, and how it may leave the
batch: as it was, ended by a stop, or closed by a halt (43_step_loop.md R170, R180, R182). -/

namespace Sys2Proof.Machine

/-- `u` has the sizes, the capabilities, the harness queue and the batch of `s`. -/
def sameSetting (s u : State) : Prop :=
  u.memSize = s.memSize ∧ u.build = s.build ∧ u.harness = s.harness ∧ u.batch = s.batch

/-- `u` has the sizes, the capabilities and the harness queue of `s`; the batch is closed, as it was, or stopped. -/
def slotSetting (s u : State) : Prop :=
  u.memSize = s.memSize ∧ u.build = s.build ∧ u.harness = s.harness ∧
    (u.batch = none ∨ u.batch = s.batch ∨ u.batch = s.batch.map (fun b => { b with stopped := true }))

theorem slotSetting_of_same {s u : State} (h : sameSetting s u) : slotSetting s u :=
  ⟨h.1, h.2.1, h.2.2.1, .inr (.inl h.2.2.2)⟩

theorem deliverTrap_setting {c : Nat} {s u : State} (h : deliverTrap c s = .next u) : sameSetting s u := by
  obtain ⟨_, _, rfl⟩ := deliverTrap_next h
  refine ⟨?_, ?_, ?_, ?_⟩ <;> simp

/-- Acting on a handler's outcome, from a state the handler left with the setting of `s0`. -/
theorem finish_setting {o : HandlerOut} {s0 s u : State} (h : finish o s = .next u) (h0 : sameSetting s0 s) :
    slotSetting s0 u := by
  have hu : slotSetting s u := by
    cases o with
    | next npc =>
      rw [finish_next] at h
      injection h with h
      subst h
      exact slotSetting_of_same ⟨rfl, rfl, rfl, rfl⟩
    | fault c =>
      rw [finish_fault] at h
      exact slotSetting_of_same (deliverTrap_setting (s := cleared s) h)
    | stop =>
      rw [finish_stop] at h
      injection h with h
      subst h
      exact ⟨rfl, rfl, rfl, .inr (.inr rfl)⟩
    | vtOther =>
      rw [finish_vtOther] at h
      injection h with h
      subst h
      exact slotSetting_of_same ⟨rfl, rfl, rfl, rfl⟩
    | halt =>
      rw [finish_halt] at h
      injection h with h
      subst h
      exact ⟨rfl, rfl, rfl, .inl rfl⟩
  obtain ⟨h1, h2, h3, h4⟩ := h0
  unfold slotSetting at hu ⊢
  rwa [h1, h2, h3, h4] at hu

/-- Every instruction. -/
theorem exec_setting (i : Instr) (s u : State) (h : exec i s = .next u) : slotSetting s u := by
  cases i <;> simp only [exec, execAddi, execAdd, execSub, execLw, execSw, execBne, execJal, execEcall, execEret,
    execMtcr, execMfcr, execStop, execSetvl, execVcfg, execHalt, finishReg] at h
  case lw rd rs1 imm =>
    rcases memRead_cases s (s.core.dataAddr rs1 imm) 4 with ⟨_, h'⟩ | ⟨c, _, h'⟩ | h' <;> rw [h'] at h
    · exact finish_setting h ⟨rfl, rfl, rfl, rfl⟩
    · exact finish_setting h ⟨rfl, rfl, rfl, rfl⟩
    · cases h
  case sw rs2 rs1 imm =>
    rcases memWrite_cases s (s.core.dataAddr rs1 imm) 4 (low32 (s.core.xRead rs2)) with ⟨_, h'⟩ | ⟨c, _, h'⟩ | h' <;>
      rw [h'] at h
    · exact finish_setting h ⟨rfl, rfl, rfl, rfl⟩
    · exact finish_setting h ⟨rfl, rfl, rfl, rfl⟩
    · cases h
  case mtcr cr rs1 rd =>
    split at h
    · exact finish_setting h ⟨rfl, rfl, rfl, rfl⟩
    · rcases crWrite_cases cr.toNat (s.core.xRead rs1) s with ⟨_, h'⟩ | ⟨r, _, h'⟩ <;> rw [h'] at h
      · exact finish_setting h ⟨rfl, rfl, rfl, rfl⟩
      · refine finish_setting h ⟨?_, ?_, ?_, ?_⟩ <;> simp
  case mfcr rd cr rs1 =>
    split at h
    · exact finish_setting h ⟨rfl, rfl, rfl, rfl⟩
    · split at h <;> exact finish_setting h ⟨rfl, rfl, rfl, rfl⟩
  case eret => split at h <;> exact finish_setting h ⟨rfl, rfl, rfl, rfl⟩
  case setvl => split at h <;> exact finish_setting h ⟨rfl, rfl, rfl, rfl⟩
  case vcfg => split at h <;> exact finish_setting h ⟨rfl, rfl, rfl, rfl⟩
  all_goals exact finish_setting h ⟨rfl, rfl, rfl, rfl⟩

/-- Every slot of the fixture table, before it is counted. -/
theorem slotBody_setting (s u : State) (h : slotBody fixtureSystem s = .next u) : slotSetting s u := by
  rcases slotBody_cases fixtureSystem rfl s with ⟨_, _, _, h'⟩ | ⟨_, ⟨_, _, h'⟩ | h' | ⟨_, h'⟩⟩ <;> rw [h'] at h
  · exact slotSetting_of_same (deliverTrap_setting h)
  · exact slotSetting_of_same (deliverTrap_setting (s := { s with lastFault := s.core.pc }) h)
  · cases h
  · rcases runWord_fixture (s.mem.read4 s.core.pc.toNat) s with ⟨i, _, h2⟩ | ⟨_, h2⟩ <;> rw [h2] at h
    · simpa [slotSetting] using exec_setting i _ u h
    · simpa [slotSetting] using slotSetting_of_same (deliverTrap_setting h)

end Sys2Proof.Machine
end

