-- ==== Sys2Proof/Laws/PerInstr.lean ====
section
/-! SUPPORT. A fact of every instruction as syntax: the word it encodes to fits its own row of the opcode table
(30_encoding.md R62, R71). -/

namespace Sys2Proof.Laws.EncodedWordFitsRow

/-- The number of an instruction's row (30_encoding.md R71). -/
def row : Instr → Nat
  | .addi _ _ _ => 0
  | .add _ _ _ => 1
  | .sub _ _ _ => 2
  | .lw _ _ _ => 3
  | .sw _ _ _ => 4
  | .bne _ _ _ => 5
  | .jal _ _ => 6
  | .ecall => 7
  | .eret => 8
  | .mtcr _ _ _ => 9
  | .mfcr _ _ _ => 10
  | .stop => 11
  | .setvl _ _ _ => 12
  | .vcfg _ _ _ => 13
  | .halt => 14

/-- The encoded word fits the instruction's own row. -/
def Statement (i : Instr) : Prop := ((opTable[row i]?).map (fun e => e.fits (encode i))) = some true

theorem of_fixed {i : Instr} {e : Entry (IWord → Instr)} (hrow : opTable[row i]? = some e)
    (hfits : encode i &&& e.mask = e.opcode) : Statement i := by
  simp only [Statement, hrow, Option.map_some, Entry.fits, hfits, BEq.rfl]

theorem addi (rd rs1 : Reg) (imm : BitVec 12) : Statement (.addi rd rs1 imm) :=
  of_fixed rfl ((encodeI_fixed imm rs1 rd _ _).trans (by decide))
theorem add (rd rs1 rs2 : Reg) : Statement (.add rd rs1 rs2) :=
  of_fixed rfl ((encodeR_fixed _ rs2 rs1 rd _ _).trans (by decide))
theorem sub (rd rs1 rs2 : Reg) : Statement (.sub rd rs1 rs2) :=
  of_fixed rfl ((encodeR_fixed _ rs2 rs1 rd _ _).trans (by decide))
theorem lw (rd rs1 : Reg) (imm : BitVec 12) : Statement (.lw rd rs1 imm) :=
  of_fixed rfl ((encodeI_fixed imm rs1 rd _ _).trans (by decide))
theorem sw (rs2 rs1 : Reg) (imm : BitVec 12) : Statement (.sw rs2 rs1 imm) :=
  of_fixed rfl ((encodeS_fixed imm rs2 rs1 _ _).trans (by decide))
theorem bne (rs1 rs2 : Reg) (off : BitVec 13) : Statement (.bne rs1 rs2 off) :=
  of_fixed rfl ((encodeB_fixed off rs2 rs1 _ _).trans (by decide))
theorem jal (rd : Reg) (off : BitVec 21) : Statement (.jal rd off) :=
  of_fixed rfl ((encodeJ_fixed off rd _).trans (by decide))
theorem ecall : Statement .ecall := by unfold Statement; decide
theorem eret : Statement .eret := by unfold Statement; decide
theorem mtcr (cr : BitVec 12) (rs1 rd : Reg) : Statement (.mtcr cr rs1 rd) :=
  of_fixed rfl ((encodeI_fixed cr rs1 rd _ _).trans (by decide))
theorem mfcr (rd : Reg) (cr : BitVec 12) (rs1 : Reg) : Statement (.mfcr rd cr rs1) :=
  of_fixed rfl ((encodeI_fixed cr rs1 rd _ _).trans (by decide))
theorem stop : Statement .stop := by unfold Statement; decide
theorem setvl (rd rs1 : Reg) (imm : BitVec 12) : Statement (.setvl rd rs1 imm) :=
  of_fixed rfl ((encodeI_fixed imm rs1 rd _ _).trans (by decide))
theorem vcfg (rs1 rs2 rd : Reg) : Statement (.vcfg rs1 rs2 rd) :=
  of_fixed rfl ((encodeR_fixed _ rs2 rs1 rd _ _).trans (by decide))
theorem halt : Statement .halt := by unfold Statement; decide

end Sys2Proof.Laws.EncodedWordFitsRow
end

