-- ==== Sys2Proof/Tests/Slice0.lean ====
section
/-! SUPPORT. Tests on small states, with expected values from spec/95_test_vectors.md (the section is named before each
group) or from the rule named, and for each statement with hypotheses a witness that meets them. -/

namespace Sys2Proof.Tests

open Sys2Proof Sys2Proof.Machine

/-! ## Small states -/

/-- The start of section 2.12: pc 0x20, evec 0x200, a status and some registers, over the reset state, runnable. -/
def small (status : IWord) (regs : List (Reg × Word)) : State :=
  State.reset.onCore (fun p =>
    regs.foldl (fun q r => q.xWrite r.1 r.2) { p with status := status, evec := 0x200, pc := 0x20, run := true })

/-- The answer is a next state of which `q` holds. -/
def gives (o : Out) (q : State → Bool) : Bool :=
  match o with
  | .next t => q t
  | .fault _ => false
  | .refused _ => false

/-- The answer is that fault. -/
def faults (o : Out) (r : Fault) : Bool :=
  match o with
  | .fault r' => r' == r
  | .next _ => false
  | .refused _ => false

/-- The answer is that refusal. -/
def refuses (o : Out) (r : Refusal) : Bool :=
  match o with
  | .refused r' => r' == r
  | .next _ => false
  | .fault _ => false

/-- One slot of the word, in a batch of one slot. -/
def one (w : IWord) (s : State) : Out := step (placeWord w s)

/-- An open batch of `n` slots. -/
def inBatch (n : Nat) (s : State) : State :=
  { s with batch := some { limit := n, used := 0, trace := false, stopped := false } }

/-- A trap was taken: code, epc, badvaddr, status, and the pc at 0x200. -/
def trapped (code : Nat) (epc bad : Word) (status : IWord) (t : State) : Bool :=
  causeCode t.core.cause == BitVec.ofNat 5 code && t.core.epc == epc && t.core.badvaddr == bad &&
    t.core.status == status && t.core.pc == 0x200

/-- A core with lanes, each as created, whatever its index says. -/
def withLanes : State := { State.reset with lanes := some (Vector.replicate Config.laneCap (laneCreated State.reset.build 0 5)) }

/-! ## WellFormed: an ill-formed term for each check -/

theorem test_bne_odd_offset_ill_formed : wellFormed (.bne 1 2 7) = false := by decide
theorem test_jal_odd_offset_ill_formed : wellFormed (.jal 1 (-1)) = false := by decide
theorem test_bne_even_offset_well_formed : wellFormed (.bne 1 2 6) = true := by decide

/-! ## Decoding: a word of every constructor, written out from its format (sections 2.1, 2.12, 3) -/

theorem test_decode_addi : decodeWord 0b111111111111_00000_000_00101_0010011 = some (.addi 5 0 (-1)) := by decide
theorem test_decode_add : decodeWord 0b0000000_00010_00001_000_00011_0110011 = some (.add 3 1 2) := by decide
theorem test_decode_sub : decodeWord 0b0100000_00010_00001_000_00011_0110011 = some (.sub 3 1 2) := by decide
theorem test_decode_lw : decodeWord 0b111111111100_00001_010_00011_0000011 = some (.lw 3 1 (-4)) := by decide
theorem test_decode_sw : decodeWord 0b0011111_00010_00000_010_11100_0100011 = some (.sw 2 0 0x3FC) := by decide
theorem test_decode_bne : decodeWord 0b1_111111_00000_00001_001_1100_1_1100011 = some (.bne 1 0 (-8)) := by decide
theorem test_decode_jal : decodeWord 0b1_1111111110_1_11111111_00000_1101111 = some (.jal 0 (-4)) := by decide
theorem test_decode_jal_forward : decodeWord 0x010000EF = some (.jal 1 16) := by decide
theorem test_decode_ecall : decodeWord 0x00000073 = some .ecall := by decide
theorem test_decode_eret : decodeWord 0x10200073 = some .eret := by decide
theorem test_decode_mtcr : decodeWord 0b000000010010_00001_001_00000_1110011 = some (.mtcr 18 1 0) := by decide
theorem test_decode_mfcr : decodeWord 0b000000001010_00000_010_00101_1110011 = some (.mfcr 5 10 0) := by decide
theorem test_decode_stop : decodeWord 0x0000000B = some .stop := by decide
theorem test_decode_setvl : decodeWord 0b000000000000_00011_001_00100_0001011 = some (.setvl 4 3 0) := by decide
theorem test_decode_vcfg : decodeWord 0b0000000_00010_00010_010_00000_0001011 = some (.vcfg 2 2 0) := by decide
theorem test_decode_halt : decodeWord 0x0000300B = some .halt := by decide

/-- Section 2.1: the illegal words. -/
theorem test_illegal_words :
    decodeWord 0x00000000 = none ∧ decodeWord 0x00000063 = none ∧ decodeWord 0x20000033 = none ∧
    decodeWord 0x02000033 = none ∧ decodeWord 0x00100073 = none ∧ decodeWord 0x00003073 = none := by decide
theorem test_illegal_words_more :
    decodeWord 0x0220200B = none ∧ decodeWord 0x0000400B = none ∧ decodeWord 0xFFFFFFFF = none := by decide

/-- Section 2.1: JAL's mask ignores funct3; SUB and not ADD. -/
theorem test_jal_ignores_funct3 : decodeWord 0x0000106F = some (.jal 0 0x1000) := by decide
theorem test_sub_before_add : decodeWord 0x40208033 = some (.sub 0 1 2) := by decide

/-- Section 2.1: the candidates of four slots, in table order. -/
theorem test_slot_candidates :
    (candidates 10 opTable 0x033).map (fun e => e.mnemonic) = ["FX.ADD", "FX.SUB"] ∧
    (candidates 10 opTable 0x073).map (fun e => e.mnemonic) = ["FX.ECALL", "FX.ERET", "FX.MTCR", "FX.MFCR"] ∧
    (candidates 10 opTable 0x00B).map (fun e => e.mnemonic) = ["FX.STOP", "FX.SETVL", "FX.VCFG", "FX.HALT"] ∧
    (candidates 10 opTable 0x000).map (fun e => e.mnemonic) = [] := by decide

theorem test_decode_too_short : decode [0x13, 0, 0] = .error .tooShort := by rfl

/-! ## The instructions (section 2.12) -/

theorem test_addi_wraps : gives (one 0x00108113 (small 0x21 [(1, 0xFFFFFFFFFFFFFFFF)])) (fun t =>
    t.core.xRead 2 == 0 && t.core.pc == 0x24 && t.core.count == 1) = true := by decide
theorem test_addi_to_x0_is_discarded : gives (one 0x00500013 (small 0x21 [])) (fun t =>
    t.core.xRead 0 == 0 && t.core.pc == 0x24) = true := by decide
theorem test_add_doubles_and_wraps : gives (one 0x005282B3 (small 0x21 [(5, 0x8000000000000000)])) (fun t =>
    t.core.xRead 5 == 0) = true := by decide
theorem test_sub_wraps : gives (one 0x40100333 (small 0x21 [(1, 1)])) (fun t =>
    t.core.xRead 6 == 0xFFFFFFFFFFFFFFFF) = true := by decide
theorem test_lw_sign_extends :
    gives (one 0x3FC02183 { small 0x21 [] with mem := [(0x3FC, 0xFF), (0x3FD, 0xFF), (0x3FE, 0xFF), (0x3FF, 0x7F)] })
      (fun t => t.core.xRead 3 == 0x7FFFFFFF) = true := by decide
theorem test_lw_past_the_end_traps : gives (one 0x0040A183 (small 0x21 [(1, 0x3FC)])) (fun t =>
    trapped 10 0x20 0x400 0x30 t && t.core.xRead 3 == 0) = true := by decide
theorem test_sw_stores_low_half : gives (one 0x3E202E23 (small 0x21 [(2, 0x1122334455667788)])) (fun t =>
    t.mem.read 0x3FC == 0x88 && t.mem.read 0x3FD == 0x77 && t.mem.read 0x3FE == 0x66 && t.mem.read 0x3FF == 0x55)
    = true := by decide
theorem test_sw_misaligned_before_range : gives (one 0x3E202F23 (small 0x21 [])) (trapped 9 0x20 0x3FE 0x30)
    = true := by decide
theorem test_bne_taken : gives (one 0xFE009CE3 (small 0x21 [(1, 2)])) (fun t => t.core.pc == 0x18) = true := by decide
theorem test_bne_not_taken : gives (one 0xFE009CE3 (small 0x21 [])) (fun t => t.core.pc == 0x24) = true := by decide
theorem test_jal_links : gives (one 0x010000EF (small 0x21 [])) (fun t =>
    t.core.xRead 1 == 0x24 && t.core.pc == 0x30) = true := by decide
theorem test_jal_backward_no_link : gives (one 0xFFDFF06F (small 0x21 [])) (fun t =>
    t.core.xRead 0 == 0 && t.core.pc == 0x1C) = true := by decide
theorem test_ecall_traps : gives (one 0x00000073 (small 0x21 [])) (trapped 6 0x20 0 0x30) = true := by decide
theorem test_ecall_disabled_is_fatal : faults (one 0x00000073 (small 0x20 [])) (.errorMode 0 6) = true := by decide
theorem test_eret_returns : gives (one 0x10200073 ((small 0x30 []).onCore (fun p => { p with epc := 4 }))) (fun t =>
    t.core.status == 0x31 && t.core.pc == 4) = true := by decide
theorem test_eret_in_user_mode_traps : gives (one 0x10200073 (small 0x01 [])) (trapped 3 0x20 0 0x20) = true := by decide
theorem test_mtcr_epc : gives (one 0x00131073 (small 0x21 [(6, 4)])) (fun t => t.core.epc == 4) = true := by decide
theorem test_mtcr_unknown_traps : gives (one 0x00709073 (small 0x21 [])) (trapped 2 0x20 0 0x30) = true := by decide
theorem test_mfcr_in_user_mode_traps : gives (one 0x000020F3 (small 0x01 [])) (trapped 3 0x20 0 0x20) = true := by decide
theorem test_mfcr_status : gives (one 0x000020F3 (small 0x21 [])) (fun t => t.core.xRead 1 == 0x21) = true := by decide
theorem test_stop_keeps_pc : gives (one 0x0000000B (small 0x21 [])) (fun t =>
    t.core.pc == 0x20 && t.core.count == 1 && t.core.run && t.batch == none) = true := by decide
theorem test_setvl_disabled_traps : gives (one 0x0001920B (small 0x21 [])) (trapped 12 0x20 0 0x30) = true := by decide
theorem test_setvl_clamps :
    gives (one 0x0001920B ((small 0x25 [(3, 4000)]).onCore (fun p => { p with vlmax := 2048 }))) (fun t =>
      t.core.xRead 4 == 2048 && t.core.vl == 2048) = true := by decide
theorem test_vcfg : gives (one 0x0021200B ((small 0x25 [(2, 1)]).onCore (fun p => { p with laneCount := 8 }))) (fun t =>
    t.core.vlmax == 2048 && t.core.nxprUse == 1 && t.core.nfprUse == 1) = true := by decide
theorem test_halt_resets : gives (one 0x0000300B (small 0x21 [(1, 5)])) (fun t =>
    t.core == Proc.zero 0 none && t.batch == none) = true := by decide

/-! ## The step loop (section 2.11; 1.7) -/

theorem test_illegal_word_traps : gives (one 0x00000000 (small 0x21 [])) (trapped 2 0x20 0 0x30) = true := by decide
theorem test_fetch_misaligned : gives (step (inBatch 1 ((small 0x21 []).onCore (fun p => { p with pc := 0x3FE }))))
    (trapped 0 0x3FE 0x3FE 0x30) = true := by decide
theorem test_fetch_past_the_end : gives (step (inBatch 1 ((small 0x21 []).onCore (fun p => { p with pc := 0x400 }))))
    (trapped 1 0x400 0x400 0x30) = true := by decide
theorem test_interrupt_lowest_line :
    gives (one 0x00000013 ((small 0x00FF0021 []).onCore (fun p => { p with cause := 0x00A00000 }))) (fun t =>
      t.core.cause == 0x00A00015 && t.core.epc == 0x20 && t.core.pc == 0x200) = true := by decide
theorem test_interrupt_masked :
    gives (one 0x00000013 ((small 0x007F0021 []).onCore (fun p => { p with cause := 0x00800000 }))) (fun t =>
      t.core.cause == 0x00800000 && t.core.pc == 0x24) = true := by decide
theorem test_not_runnable_step : gives (stepCall fixtureSystem 100 true State.reset) (fun t => t == State.reset)
    = true := by decide

/-- A handler returning VtOther, outside the fixture table: 3 slots at pc 0, count 3. -/
theorem test_vtOther_refetches :
    gives (stepCall (tableSystem fixtureMemory [⟨"VT", 0, 0, fun _ _ s => .next (s, .vtOther)⟩]) 3 false (start State.reset)) (fun t =>
      t.core.pc == 0 && t.core.count == 3 && t.core.run && t.batch == none) = true := by decide

theorem test_translation_refused :
    refuses (step (inBatch 1 (statusWrite 0x121 (small 0x21 [])))) .translation = true := by decide

/-! ## Status, control registers, fsr (sections 1.2, 2.2, 2.3, 2.4) -/

theorem test_status_masks :
    maskStatus ⟨true, true, true, true⟩ 0xFFFFFFFF = 0x00FF01FF ∧ maskStatus ⟨false, true, true, true⟩ 0xFFFFFFFF = 0x00FF01FD ∧
    maskStatus ⟨true, true, true, false⟩ 0xFFFFFFFF = 0x00FF013F ∧ maskStatus ⟨true, false, true, true⟩ 0xFFFFFFFF = 0x00FF01F7 ∧
    maskStatus ⟨true, true, false, true⟩ 0xFFFFFFFF = 0x00FF01FB ∧
    maskStatus ⟨false, false, false, false⟩ 0xFFFFFFFF = 0x00FF0131 := by decide
theorem test_xprlen :
    [0x21, 0xA0, 0x40, 0x60, 0x80, 0xC0, 0xE0, 0x20].map xprlen = [32, 64, 64, 32, 32, 64, 64, 32] := by decide
theorem test_status_port_drops_high_bits :
    (crWrite 0 0x1FFFFFFFFF21 State.reset).map (fun t => t.core.status) = some 0x00FF0121 := by decide
theorem test_status_port_notifies_once :
    (crWrite 0 0xFFFFFFFF State.reset).map (fun t => t.port) = some ⟨true, true, 2, 2⟩ := by decide
theorem test_cause_port : (crWrite 6 0xFFFFFFFFFFFFFFFF State.reset).map (fun t => t.core.cause) = some 0x00FF001F := by decide
theorem test_compare_port_clears_timer :
    (crWrite 5 100 (State.reset.onCore (fun p => { p with cause := 0x00800000 }))).map
      (fun t => (t.core.compare, t.core.cause)) = some (100, 0) := by decide
theorem test_vecbank_port : (crWrite 18 0x105 State.reset).map
    (fun t => (t.core.laneMask, t.core.laneCount, t.core.vlmax)) = some (5, 2, 512) := by decide
theorem test_no_such_register :
    crRead 7 State.reset = none ∧ crWrite 7 1 State.reset = none ∧ crRead 11 State.reset = none ∧
      crWrite 32 0 State.reset = none := by decide
theorem test_fsr : [0xFFFFFFFF, 0x123, 0xE0].map (fun v => (fsrWrite v State.reset).core.fsr) = [0xFF, 0x23, 0xE0] := by decide

/-! ## Traps (sections 2.5, 2.6) -/

theorem test_trap_status :
    [0x21, 0x01, 0x00800025, 0x31, 0xE1].map trapStatus = [0x30, 0x20, 0x00800034, 0x30, 0xF0] := by decide
theorem test_return_status :
    [0x30, 0x20, 0x00800034, 0x10, 0xF0].map returnStatus = [0x31, 0x01, 0x00800035, 0x31, 0xF1] := by decide
theorem test_trap_keeps_pending : trapCause 10 0x00800005 = 0x0080000A := by decide
theorem test_bad_code_checked_first :
    faults (deliverTrap 24 (small 0x20 [])) (.badTrapCode 0 24) = true ∧
      faults (deliverTrap 2 (small 0x20 [])) (.errorMode 0 2) = true := by decide

/-! ## Timer (section 2.8) -/

/-- The count and whether the timer bit is set after `CountUpdate(i)`. -/
def timer (count compare : IWord) (i : Nat) : IWord × Bool :=
  let p := Proc.countUpdate i { Proc.zero 0 none with count := count, compare := compare }
  (p.count, p.cause.getLsbD 23)

theorem test_timer_reaches : timer 0 3 3 = (3, true) ∧ timer 0 3 2 = (2, false) ∧ timer 2 3 1 = (3, true) ∧
    timer 3 3 1 = (4, false) ∧ timer 0 0 5 = (5, false) ∧ timer 5 3 10 = (15, false) ∧ timer 7 9 0 = (7, false) := by decide
theorem test_timer_wraps :
    timer 0xFFFFFFFE 0xFFFFFFFF 4 = (2, true) ∧ timer 0xFFFFFFF0 5 0x20 = (0x10, true) ∧
    timer 0xFFFFFFF0 5 0x15 = (5, true) ∧ timer 0xFFFFFFF0 5 0x14 = (4, false) ∧ timer 0xFFFFFFFF 0 1 = (0, true) := by decide
theorem test_timer_full_lap :
    timer 10 20 4294967296 = (10, true) ∧ timer 20 20 4294967296 = (20, true) ∧
    timer 20 20 4294967295 = (19, false) := by decide

/-! ## Vector configuration (section 2.9) -/

/-- `vlmax` after `VCfg(nx, nf)` with a lane count. -/
def maxLen (nx nf : Word) (lanes : Nat) : Nat :=
  (Proc.vcfg nx nf { Proc.zero 0 none with laneCount := lanes }).vlmax.toNat

theorem test_vlmax :
    maxLen 0 0 8 = 2048 ∧ maxLen 1 0 8 = 2048 ∧ maxLen 1 1 8 = 2048 ∧ maxLen 3 0 8 = 1024 ∧ maxLen 32 32 8 = 32 ∧
    maxLen 4 4 3 = 108 ∧ maxLen 129 1 8 = 8 ∧ maxLen 257 0 8 = 8 ∧ maxLen 258 0 8 = 0 ∧ maxLen 1 1 1 = 256 ∧
    maxLen 1 1 0 = 0 := by decide

/-! ## Harness, reset, trace (sections 2.7, 2.10, 2.13; 60_exceptions.md R284) -/

theorem test_ipi : (deliverIpi State.reset).core.cause = 0x00200000 ∧ (deliverIpi State.reset).core.run = true := by decide
theorem test_construct_is_reset : construct [] 0x400 0 ⟨true, true, true, true⟩ = State.reset := by decide
theorem test_reset_after_running :
    (resetAll (small 0x21 [(1, 5)])).core = State.reset.core ∧
      (resetAll (small 0x21 [(1, 5)])).port = ⟨false, false, 2, 2⟩ := by decide
theorem test_lane_status :
    (laneCreated ⟨true, true, true, true⟩ 3 5).status = 6 ∧ (laneCreated ⟨true, true, false, true⟩ 3 5).status = 2 ∧
      (laneCreated ⟨false, true, false, true⟩ 3 5).status = 0 := by decide
theorem test_trap_line :
    (TraceLine.trap 0 6 0x20).render = "core   0: trap syscall, pc 0x0000000000000020" := by decide
theorem test_traced_slot :
    gives (step { placeWord 0x00000013 (small 0x21 []) with batch := some ⟨1, 0, true, false⟩ }) (fun t =>
      t.traceOut == [.fetched 0 0x20 0x00000013]) = true := by decide
theorem test_harness_runs_in_order :
    gives (step { State.reset with harness := [.start, .step 1 false] }) (fun t =>
      t.core.run && t.harness == [.step 1 false]) = true := by decide
theorem test_placed_word_runs_first : gives (step (State.reset.withFetchWord 32 0x00500093)) (fun t =>
    t.core.xRead 1 == 5 && t.core.pc == 4 && t.core.count == 1) = true := by decide
theorem test_run_lane_stop :
    gives (runLane fixtureSystem 5 0x80 10 { withLanes with mem := [(0x80, 0x0B)] }) (fun t =>
      (laneAt 5 t).any (fun l => l.pc == 0x80 && l.count == 1 && !l.run) && t.core == withLanes.core) = true := by decide +kernel
theorem test_run_lane_illegal_is_fatal :
    faults (runLane fixtureSystem 5 0x80 1 withLanes) (.errorMode 0 2) = true := by decide

/-- A table of one's own whose only instruction is an 8-byte load into x1 through the memory port. -/
def load8Table : List (Entry Handler) :=
  [⟨"LD", 0, 0, fun sys _ s => answerAccess (sys.memory.read s (s.core.xRead 2) 8) (fun v =>
    .next (s.onCore (fun p => p.xWrite 1 v), .next s.core.pcNext))⟩]

/-- Little-endian over 8 bytes (20_memory.md R46), and the fault code of a misaligned load (R45, R54). -/
theorem test_handler_reads_eight_bytes :
    gives (stepCall (tableSystem fixtureMemory load8Table) 1 false
      { small 0x21 [(2, 0x100)] with mem := [(0x100, 0x88), (0x107, 0x11)] }) (fun t =>
        t.core.xRead 1 == 0x1100000000000088) = true := by decide
theorem test_handler_load_fault_is_a_trap :
    gives (stepCall (tableSystem fixtureMemory load8Table) 1 false (small 0x21 [(2, 0x104)]))
      (trapped 8 0x20 0x104 0x30) = true := by decide

/-- A table of one's own: words with bit 0 clear run lane 5 at 0x80 for one slot, the other words stop. -/
def laneTable : List (Entry Handler) :=
  [⟨"RUN", 0, 1, fun sys _ s => answerRun (runLane sys 5 0x80 1 s) (fun t => .next (t, .next t.core.pcNext))⟩,
   ⟨"STOP", 0x3, 0x3, fun _ _ s => .next (s, .stop)⟩]

/-- Section 2.10: a handler runs a lane; a lane's Fatal leaves the owner's loop (43_step_loop.md R170). -/
theorem test_handler_runs_a_lane :
    gives (stepCall (tableSystem fixtureMemory laneTable) 1 false { start withLanes with mem := [(0x80, 0x03)] }) (fun t =>
      (laneAt 5 t).any (fun l => l.pc == 0x80 && l.count == 1 && !l.run) && t.core.pc == 4) = true := by decide +kernel
theorem test_lane_fatal_leaves_the_owner :
    faults (stepCall (tableSystem fixtureMemory laneTable) 1 false { start withLanes with mem := [(0x80, 0x01)] })
      (.errorMode 0 2) = true := by decide +kernel
/-- A lane that would run a lane (93_implementation_defined.md U14). -/
theorem test_nested_lane_refused :
    refuses (stepCall (tableSystem fixtureMemory laneTable) 1 false (start withLanes)) (.noSuchLane 5) = true := by
  decide +kernel

/-- A table of one's own whose handler writes x1 (words with bit 0 set) or x0 (the others) and then returns a trap. -/
def writeThenFault : List (Entry Handler) :=
  [⟨"W1", 1, 1, fun _ _ s => .next (s.onCore (fun p => p.xWrite 1 9), .fault 6)⟩,
   ⟨"W0", 0, 0, fun _ _ s => .next (s.onCore (fun p => p.xWrite 0 9), .fault 6)⟩]

/-- A handler that changes a register and returns `Fault` is refused (93_implementation_defined.md U9); a write of x[0] is
cleared before the trap (43_step_loop.md R177). -/
theorem test_write_then_fault_refused :
    refuses (stepCall (tableSystem fixtureMemory writeThenFault) 1 false { small 0x21 [] with mem := [(0x20, 0x01)] })
      .handlerObligation = true := by decide
theorem test_write_of_x0_then_fault_traps :
    gives (stepCall (tableSystem fixtureMemory writeThenFault) 1 false (small 0x21 [])) (fun t =>
      t.core.xRead 0 == 0 && trapped 6 0x20 0 0x30 t) = true := by decide

/-! ## Witnesses: concrete states and operands that meet a statement's hypotheses, for every clause -/

/-- The state of section 2.12 with a word placed where the next slot fetches, in a batch of one slot. -/
def placed (w : IWord) (status : IWord) : State := placeWord w (small status [])

/-- The hypotheses of a statement about a fetch that is performed. -/
abbrev fetchReady (s : State) : Prop := takenLine s.core.status s.core.cause = none ∧ accessOk s s.core.pc

theorem witness_DecodeOfEncodeIsIdentity : wellFormed (.bne 1 0 (-8)) = true ∧ wellFormed (.jal 0 (-4)) = true := by decide
theorem witness_EncodeOfDecodeIsIdentity : decodeWord 0x0021200B = some (.vcfg 2 2 0) := by decide
theorem witness_StepRunsDecodedInstruction_untraced :
    (placed 0x00500093 0x21).batch = some ⟨1, 0, false, false⟩ ∧ fetchReady (placed 0x00500093 0x21) ∧
    decode [0x93, 0x00, 0x50, 0x00] = .ok (.addi 1 0 5, []) ∧
    ((placed 0x00500093 0x21).mem.read 0x20 = 0x93 ∧ (placed 0x00500093 0x21).mem.read 0x21 = 0x00 ∧
      (placed 0x00500093 0x21).mem.read 0x22 = 0x50 ∧ (placed 0x00500093 0x21).mem.read 0x23 = 0x00) :=
  ⟨rfl, ⟨by decide, by decide⟩, rfl, by decide⟩
theorem witness_StepRunsDecodedInstruction_traced :
    fetchReady { placed 0x00500093 0x21 with batch := some ⟨1, 0, true, false⟩ } := ⟨by decide, by decide⟩
theorem witness_IllegalWordTraps :
    fetchReady (placed 0 0x21) ∧ decodeWord ((placed 0 0x21).mem.read4 0x20) = none ∧
    statusET (placed 0 0x21).core.status = true ∧ fetchReady (placed 0 0x20) ∧
    statusET (placed 0 0x20).core.status = false := ⟨⟨by decide, by decide⟩, by decide, by decide, ⟨by decide, by decide⟩, by decide⟩
theorem witness_LowestEnabledInterruptTaken :
    (∀ k : Fin 8, (k = 0 ∨ k = 7) → (causeIP (flagAt true (16 + k.val)) &&& statusIM 0x00FF0021).getLsbD k = true ∧
      ∀ j : Fin 8, j < k → (causeIP (flagAt true (16 + k.val)) &&& statusIM 0x00FF0021).getLsbD j = false) ∧
    statusET 0x00FF0021 = true := by decide
theorem witness_FetchFaultTraps :
    statusET (small 0x21 []).core.status = true ∧ takenLine 0x21 0 = none ∧ (small 0x21 []).port.vm = false ∧
    (0x3FE : Word).toNat % 4 ≠ 0 ∧ (0x400 : Word).toNat % 4 = 0 ∧ (small 0x21 []).memSize < (0x400 : Word).toNat + 4 ∧
    (-4 : Word).toNat % 4 = 0 ∧ (small 0x21 []).memSize < (-4 : Word).toNat + 4 := by decide
theorem witness_NotRunnableStepDoesNothing : State.reset.batch = none ∧ State.reset.core.run = false := by decide
theorem witness_EverySlotCountsOnce_goes_on :
    gives (slotBody fixtureSystem (inBatch 2 (placed 0x00500093 0x21))) (fun u =>
      u.batch == some ⟨2, 0, false, false⟩) = true := by decide
theorem witness_EverySlotCountsOnce_last :
    gives (slotBody fixtureSystem (placed 0x00500093 0x21)) (fun u => u.batch == some ⟨1, 0, false, false⟩) = true ∧
    gives (slotBody fixtureSystem (inBatch 9 (placed 0x0B 0x21))) (fun u => u.batch == some ⟨9, 0, false, true⟩)
      = true := by decide
theorem witness_EverySlotCountsOnce_halt :
    gives (slotBody fixtureSystem (placed 0x300B 0x21)) (fun u => u.batch == none) = true := by decide
theorem witness_BatchEndsWithinItsBound :
    gives (stepCall fixtureSystem 2 false { placed 0x0000006F 0 with batch := none }) (fun t =>
      t.core.count == 2 && t.batch == none) = true := by decide
theorem witness_StepwiseRunIsTheStepLoop : (placed 0x0000006F 0).harness = [] := by decide
theorem witness_HarnessWaitsForBatchEnd :
    gives (step { placed 0x00500093 0x21 with harness := [.reset] }) (fun t => t.harness == [.reset]) = true := by decide

/-- AddiAddsImmediate, AddAddsRegisters, SubSubtractsRegisters, LoadWord, StoreWord, BranchNotEqual, JumpAndLink,
MoveToControlRegister, MoveFromControlRegister, SetVectorLength, VectorConfigure: a word that fits the row. -/
theorem witness_words_of_each_row :
    (0xFFF00293 &&& 0x0000707F : IWord) = 0x00000013 ∧ (0x002081B3 &&& 0xFE00707F : IWord) = 0x00000033 ∧
    (0x402081B3 &&& 0xFE00707F : IWord) = 0x40000033 ∧ (0x0040A183 &&& 0x0000707F : IWord) = 0x00002003 ∧
    (0x0020A223 &&& 0x0000707F : IWord) = 0x00002023 ∧ (0xFE009CE3 &&& 0x0000707F : IWord) = 0x00001063 ∧
    (0x010000EF &&& 0x0000007F : IWord) = 0x0000006F ∧ (0x00131073 &&& 0x0000707F : IWord) = 0x00001073 ∧
    (0x00A022F3 &&& 0x0000707F : IWord) = 0x00002073 ∧ (0x0001920B &&& 0x0000707F : IWord) = 0x0000100B ∧
    (0x0021200B &&& 0xFE00707F : IWord) = 0x0000200B := by decide
/-- The lowest and the highest word inside memory, the first address past it, and a misaligned address. -/
theorem witness_LoadWord_and_StoreWord :
    accessOk (small 0x21 []) 0 ∧ accessOk (small 0x21 []) 0x3FC ∧ Memory.wf (small 0x21 []).mem ∧
    (small 0x21 []).port.vm = false ∧ statusET (small 0x21 []).core.status = true ∧
    (0x101 : Word).toNat % 4 ≠ 0 ∧ (0x400 : Word).toNat % 4 = 0 ∧ (small 0x21 []).memSize < (0x400 : Word).toNat + 4 :=
  ⟨by decide, by decide, by decide, by decide⟩
theorem witness_LoadWord_address : (0x400 : Word) = (small 0x21 [(1, 0x3FC)]).core.xRead 1 + (4 : BitVec 12).signExtend 64 := by
  decide
theorem witness_BranchNotEqual :
    (small 0x21 [(1, 2)]).core.xRead 1 ≠ (small 0x21 [(1, 2)]).core.xRead 0 ∧
    (small 0x21 [(1, 2)]).core.xRead 1 = (small 0x21 [(1, 2)]).core.xRead 1 := by decide
theorem witness_EcallTakesSyscallTrap :
    statusET (small 0x21 []).core.status = true ∧ statusET (small 0x20 []).core.status = false := by decide
theorem witness_EretReturnsFromTrap :
    (statusS (small 0x30 []).core.status = true ∧
      maskStatus (small 0x30 []).build (small 0x30 []).core.status = (small 0x30 []).core.status) ∧
    (statusS (small 0x01 []).core.status = false ∧ statusET (small 0x01 []).core.status = true) := by decide
/-- MoveToControlRegister, MoveFromControlRegister: the first, the last and an absent control register number, and the largest the field holds. -/
theorem witness_control_register_moves :
    statusS (small 0x21 []).core.status = true ∧ statusET (small 0x21 []).core.status = true ∧
    (0 : BitVec 12).toNat ∈ [0, 1, 2, 3, 4, 5, 6, 10, 12, 13, 18, 30, 31] ∧
    (31 : BitVec 12).toNat ∈ [0, 1, 2, 3, 4, 5, 6, 10, 12, 13, 18, 30, 31] ∧
    (7 : BitVec 12).toNat ∉ [0, 1, 2, 3, 4, 5, 6, 10, 12, 13, 18, 30, 31] ∧
    (4095 : BitVec 12).toNat ∉ [0, 1, 2, 3, 4, 5, 6, 10, 12, 13, 18, 30, 31] ∧
    statusS (small 0x01 []).core.status = false ∧ statusET (small 0x01 []).core.status = true := by decide
theorem witness_StopEndsBatch :
    (placed 0x0B 0x21).batch = some ⟨1, 0, false, false⟩ ∧ fetchReady (placed 0x0B 0x21) ∧
    (placed 0x0B 0x21).mem.read4 0x20 = 0x0000000B := ⟨rfl, ⟨by decide, by decide⟩, by decide⟩
theorem witness_HaltResetsCore : (small 0x21 []).core.laneIndex = none := by decide
/-- SetVectorLength, VectorConfigure. -/
theorem witness_vector_instructions :
    statusEV (small 0x25 []).core.status = true ∧ statusEV (small 0x21 []).core.status = false ∧
      statusET (small 0x21 []).core.status = true := by decide
theorem witness_VectorConfigure_boundary :
    (small 0x25 [(1, 1), (2, 1)]).core.xRead 1 + (small 0x25 [(1, 1), (2, 1)]).core.xRead 2 = 2 := by decide

theorem witness_ControlRegisterNumbers :
    (7 ∉ [0, 1, 2, 3, 4, 5, 6, 10, 12, 13, 18, 30, 31]) ∧ (32 ∉ [0, 1, 2, 3, 4, 5, 6, 10, 12, 13, 18, 30, 31]) := by decide
theorem witness_PlainControlRegisterWrites :
    1 ∈ [1, 2, 3, 12, 13, 30, 31] ∧ 31 ∈ [1, 2, 3, 12, 13, 30, 31] := by decide
theorem witness_StatusRewriteStillNotifies :
    maskStatus (small 0x21 []).build (small 0x21 []).core.status = (small 0x21 []).core.status := by decide
theorem witness_TrapDelivery :
    24 ≤ 24 ∧ statusET (small 0x20 []).core.status = false ∧ 0 < 24 ∧ 23 < 24 ∧ statusET (small 0x21 []).core.status = true ∧
      maskStatus (small 0x21 []).build (small 0x21 []).core.status = (small 0x21 []).core.status := by decide
theorem witness_FatalTrapsExactly :
    24 ≤ 24 ∧ 23 < 24 ∧ statusET (small 0x20 []).core.status = false ∧ statusET (small 0x21 []).core.status = true := by decide
theorem witness_TrapThenReturnRestoresMode :
    gives (deliverTrap 23 (small 0x01 [])) (fun _ => true) = true ∧
      maskStatus (small 0x01 []).build (small 0x01 []).core.status = (small 0x01 []).core.status := by decide
theorem witness_LaneCreation : State.reset.lanes = none ∧ withLanes.lanes ≠ none := ⟨rfl, by simp [withLanes]⟩
theorem witness_LaneMultiplexerRefusesExactly :
    State.reset.lanes = none ∧ ¬ (withLanes.lanes = none ∨ 2048 ≤ 2047) := ⟨rfl, by simp [withLanes]⟩
theorem witness_RunLaneIsolatesOwner :
    gives (runLane fixtureSystem 2047 0x80 10 { withLanes with mem := [(0x80, 0x0B)] }) (fun _ => true) = true := by
  decide +kernel
theorem witness_ResetRestoresCreationState :
    withLanes.core.laneIndex = none ∧ laneAt 5 withLanes = some (laneCreated State.reset.build 0 5) ∧
      (laneCreated State.reset.build 0 5).laneIndex = some 5 ∧
      (laneCreated State.reset.build 0 5).coreId = withLanes.core.coreId := by decide +kernel
theorem witness_StoredWordReadsBack : Memory.wf [(0x80, 0x0B)] ∧ (0x7F ≤ 0x80 ∧ 0x80 < 0x7F + 4) ∧ ¬ (0x7F ≤ 0x83 ∧ 0x83 < 0x7F + 4) := by
  decide
/-- The widths 1, 2, 4 and 8 at the last address they fit at, one past it, and a misaligned address of each but 1. -/
theorem witness_DataAccessOfAnyWidth :
    (∀ n ∈ [1, 2, 4, 8], accessFits n State.reset (BitVec.ofNat 64 (0x400 - n)) ∧
      (0x400 : Word).toNat % n = 0 ∧ State.reset.memSize < (0x400 : Word).toNat + n) ∧
    (∀ n ∈ [2, 4, 8], (0x101 : Word).toNat % n ≠ 0) ∧
    (statusWrite 0x100 State.reset).port.vm = true ∧ State.reset.port.vm = false ∧ Memory.wf [(0x80, 0x0B)] := by decide
theorem witness_HandlerAnswersActedOn :
    (decodeIn laneTable 0).isSome = true ∧ (decodeIn laneTable 3).isSome = true ∧
    (decodeIn writeThenFault 1).isSome = true ∧ registersKept State.reset State.reset ∧
    ¬ registersKept State.reset (State.reset.onCore (fun p => p.xWrite 1 9)) := by decide
theorem witness_FetchSeesEarlierStore : Memory.wf State.reset.mem ∧ accessOk State.reset 0x3FC ∧
    memWrite State.reset 0x3FC 4 (7 : IWord) = .ok { State.reset with mem := [(0x3FC, 7)] } := ⟨by decide, by decide, rfl⟩
theorem witness_StepKeepsInvariant :
    (placed 0x00500093 0x21).inv ∧ gives (step (placed 0x00500093 0x21)) (fun _ => true) = true ∧
    State.reset.inv ∧ gives (step State.reset) (fun _ => true) = true := by decide
theorem witness_UserModeCannotReachControlState :
    statusS (small 0x01 []).core.status = false ∧ Instr.eret ≠ .halt ∧
      gives (exec .eret (small 0x01 [])) (fun _ => true) = true ∧
      gives (exec (.add 1 2 3) (small 0x01 [])) (fun _ => true) = true := by decide

end Sys2Proof.Tests
end

section
/-! PROOFS, scope (00_scope.md). What one step of the machine is inside a batch and between batches, that a slot leaves
the harness's queue alone, and with it: the stepwise run is the step loop (R8), the harness waits for the batch's end
(R3), and every answer of a handler is acted on (R4, R5). -/

namespace Sys2Proof.Machine

/-! ## One step inside a batch, and between batches (43_step_loop.md R172) -/

theorem step_of_batch_some {s : State} {b : Batch} (hb : s.batch = some b) : step s = slot s := by
  simp only [step, hb]

/-- Between batches a harness with nothing left to do leaves the machine as it is (log entry 6). -/
theorem step_of_idle {s : State} (hb : s.batch = none) (hh : s.harness = []) : step s = .next s := by
  simp only [step, hb, harnessStep, hh]

@[simp] theorem endSlot_harness (s : State) : (endSlot s).harness = s.harness := by
  obtain ⟨_, h⟩ | ⟨b, _, _, _, h⟩ | ⟨b, _, _, h⟩ := endSlot_cases s <;> simp [h]

/-- No slot, whatever it did, takes an operation from the harness's queue. -/
theorem slot_harness {s t : State} (h : slot s = .next t) : t.harness = s.harness := by
  obtain ⟨u, hu, rfl⟩ := afterSlot_next h
  obtain ⟨_, _, hharness, _⟩ := slotBody_setting s u hu
  rw [endSlot_harness, hharness]

/-- Settles O15: inside a batch a step is a slot, and no slot touches the queue. -/
theorem harnessWaitsForBatchEnd : Obligations.HarnessWaitsForBatchEnd := by
  intro s t b hb h
  rw [step_of_batch_some hb] at h
  exact slot_harness h

/-! ## The step-by-step run and the step loop (00_scope.md R8, 43_step_loop.md R170) -/

/-- A step that changes nothing is repeated to no effect. -/
theorem run_of_step_self {s : State} (h : step s = .next s) (n : Nat) : Host.Core.run core n s = .next s := by
  induction n with
  | zero => rfl
  | succ n ih =>
    have h' : core.step s = .next s := h
    simp only [Host.Core.run, h', ih]

theorem runSlots_of_no_batch (sys : System) (n : Nat) {s : State} (hb : s.batch = none) :
    runSlots sys n s = .next s := by
  cases n with
  | zero => rfl
  | succ n => simp only [runSlots, hb]

/-- With a batch open, a longer run of the machine and a longer loop both begin with the same slot; so they agree when
they agree from the state it leaves. -/
theorem run_succ_eq_runSlots_succ {s : State} {b : Batch} {n : Nat} (hb : s.batch = some b)
    (hrest : ∀ t, slot s = .next t → Host.Core.run core n t = runSlots fixtureSystem n t) :
    Host.Core.run core (n + 1) s = runSlots fixtureSystem (n + 1) s := by
  have hstep : core.step s = slotWith fixtureSystem s := step_of_batch_some hb
  cases hslot : slotWith fixtureSystem s with
  | next t => simpa only [Host.Core.run, runSlots, hb, hstep, hslot] using hrest t hslot
  | fault r =>
    simp only [Host.Core.run, runSlots, hb, hstep, hslot]
    rfl
  | refused r =>
    simp only [Host.Core.run, runSlots, hb, hstep, hslot]
    rfl

/-- Settles O14, by induction on the number of steps. With a batch open both sides run the same slot, which keeps the
queue empty; between batches both sides stay where they are. -/
theorem stepwiseRunIsTheStepLoop : Obligations.StepwiseRunIsTheStepLoop := by
  intro n
  induction n with
  | zero => exact fun s _ => rfl
  | succ n ih =>
    intro s hh
    cases hb : s.batch with
    | none => exact (run_of_step_self (step_of_idle hb hh) _).trans (runSlots_of_no_batch _ _ hb).symm
    | some b => exact run_succ_eq_runSlots_succ hb fun t ht => ih t ((slot_harness ht).trans hh)

/-! ## The answers of a handler (00_scope.md R4, R5; 43_step_loop.md R177 to R182) -/

@[simp] theorem haltCore_core (s : State) : (haltCore s).core = s.core.resetTo s.build := rfl
@[simp] theorem haltCore_batch (s : State) : (haltCore s).batch = none := rfl
@[simp] theorem haltCore_mem (s : State) : (haltCore s).mem = s.mem := rfl

/-- A halt resets the core: everything is 0 but its status, its index and its lane index. -/
theorem haltCore_cleared_core (u : State) :
    (haltCore (cleared u)).core =
      { Proc.zero u.core.coreId u.core.laneIndex with status := (haltCore (cleared u)).core.status } := rfl

/-- Settles O57: the decoded handler's answer goes to `finishAns`. It acts on `Next` always, on any other outcome when
the handler kept the registers, refuses the handler otherwise, and passes a fault and a refusal on. -/
theorem handlerAnswersActedOn : Obligations.HandlerAnswersActedOn := by
  intro c ot w h hdec
  refine ⟨fun s => finishAns s (h (laneSystem c ot) w s), by rw [tableSystem_dispatch, hdec]; rfl, fun s u => ?_⟩
  refine ⟨fun npc ha => ?next, fun hx hl => ⟨fun code ha => ?fault, fun ha => ?stop, fun ha => ?vtOther,
    fun ha => ?halt⟩, fun o ha ho hreg => ?broken, fun r ha => ?laneFatal, fun r ha => ?refusal⟩ <;> simp only [ha]
  case next => exact finishAns_next s u npc
  case fault => exact finishAns_kept (.fault code) ⟨hx, hl⟩
  case stop => exact finishAns_kept .stop ⟨hx, hl⟩
  case vtOther => exact finishAns_kept .vtOther ⟨hx, hl⟩
  case halt =>
    exact ⟨haltCore (cleared u), finishAns_kept .halt ⟨hx, hl⟩, haltCore_batch _, haltCore_mem _,
      haltCore_cleared_core u⟩
  case broken => exact finishAns_broken o ho fun ⟨hx, hl⟩ => hreg.elim (· hx) (· hl)
  case laneFatal => exact finishAns_fault s r
  case refusal => exact finishAns_refused s r

end Sys2Proof.Machine
end

section
/-! PROOFS, state (10_state.md). The invariant of the machine is kept by every step. Inside a slot two weaker forms of it
hold: while a handler runs, register 0 may hold anything (R11), and a handler that stopped the batch leaves the stop to the
slot's end (43_step_loop.md R180). Each operation keeps the form of its place, and the slot's end gives the invariant
back. -/

namespace Sys2Proof.Machine

/-! ## A processor state, register 0 aside (10_state.md R16, R19, R20, R22) -/

/-- `Proc.ok` but for register 0, which an instruction may write before the slot's end (10_state.md R11). -/
def Proc.sound (b : Build) (p : Proc) : Prop :=
  maskStatus b p.status = p.status ∧ maskCause p.cause = p.cause ∧ maskFsr p.fsr = p.fsr ∧
    p.laneCount = popcount p.laneMask ∧ p.vl.toNat ≤ p.vlmax.toNat ∧ p.vlmax.toNat ≤ Config.laneCap

section
variable {b : Build} {p : Proc}

theorem Proc.sound.maskedStatus (h : p.sound b) (v : IWord) : Proc.sound b { p with status := maskStatus b v } := by
  obtain ⟨_, hrest⟩ := h
  exact ⟨maskStatus_maskStatus b v, hrest⟩

theorem Proc.sound.withCause (h : p.sound b) {c : IWord} (hc : maskCause c = c) : Proc.sound b { p with cause := c } := by
  obtain ⟨hstatus, _, hrest⟩ := h
  exact ⟨hstatus, hc, hrest⟩

theorem Proc.sound.maskedFsr (h : p.sound b) (v : IWord) : Proc.sound b { p with fsr := maskFsr v } := by
  obtain ⟨hstatus, hcause, _, hvector⟩ := h
  exact ⟨hstatus, hcause, maskFsr_maskFsr v, hvector⟩

theorem recomputeVlmax_vlmax_le (p : Proc) : p.recomputeVlmax.vlmax.toNat ≤ Config.laneCap :=
  (BitVec.toNat_ofNat _ 64).trans_le ((Nat.mod_le _ _).trans (min_le_right _ _))

/-- The capacity clamp of `RecomputeVlmax` bounds `vlmax`, and its last clamp `vl` (42_vector_lanes.md R140). -/
theorem Proc.sound.recomputeVlmax (h : p.sound b) : p.recomputeVlmax.sound b := by
  obtain ⟨hstatus, hcause, hfsr, hcount, _, _⟩ := h
  exact ⟨hstatus, hcause, hfsr, hcount, minWord_le _ _, recomputeVlmax_vlmax_le p⟩

theorem Proc.sound.vcfg (h : p.sound b) (nx nf : Word) : (p.vcfg nx nf).sound b :=
  Proc.sound.recomputeVlmax (p := { p with nxprUse := nx, nfprUse := nf }) h

theorem Proc.sound.setVl (h : p.sound b) (r : Word) : (p.setVl r).sound b := by
  obtain ⟨hstatus, hcause, hfsr, hcount, _, hvlmax⟩ := h
  exact ⟨hstatus, hcause, hfsr, hcount, minWord_le _ _, hvlmax⟩

theorem Proc.sound.setLaneMask (h : p.sound b) (v : Word) : (p.setLaneMask v).sound b := by
  obtain ⟨hstatus, hcause, hfsr, _, hvl⟩ := h
  exact Proc.sound.recomputeVlmax
    (p := { p with laneMask := v.setWidth 8, laneCount := popcount (v.setWidth 8) }) ⟨hstatus, hcause, hfsr, rfl, hvl⟩

/-- The count update sets no bit of cause but the timer's (60_exceptions.md R265). -/
theorem maskCause_countUpdate (h : maskCause p.cause = p.cause) (i : Nat) :
    maskCause (p.countUpdate i).cause = (p.countUpdate i).cause := by
  simp only [Proc.countUpdate]
  split
  · exact maskCause_raiseLine _ _ (by decide) h
  · exact h

theorem Proc.sound.countUpdate (h : p.sound b) (i : Nat) : (p.countUpdate i).sound b := by
  obtain ⟨hstatus, hcause, hrest⟩ := h
  exact ⟨hstatus, maskCause_countUpdate hcause i, hrest⟩

end

/-- Every register 0 and a masked status word: what a reset and a lane's creation leave (70_reset_and_hazards.md R300). -/
theorem ok_zero_status (b : Build) (coreId : Nat) (laneIndex : Option Nat) {v : IWord} (hv : maskStatus b v = v) :
    Proc.ok b { Proc.zero coreId laneIndex with status := v } :=
  ⟨rfl, hv, (by decide : maskCause 0 = 0), (by decide : maskFsr 0 = 0), (by decide : 0 = popcount 0), le_rfl,
    Nat.zero_le _⟩

theorem resetTo_ok (b : Build) (p : Proc) : (p.resetTo b).ok b :=
  ok_zero_status b _ _ (maskStatus_resetStatus b _)

/-- A lane's own reset makes it sound, keeps its indices and stops it (42_vector_lanes.md R153). -/
theorem laneOk_resetTo {b : Build} {coreId k : Nat} {lane : Proc} (h : laneOk b coreId k lane) :
    laneOk b coreId k (lane.resetTo b) := by
  obtain ⟨_, hindex, hcoreId, _⟩ := h
  exact ⟨resetTo_ok b lane, hindex, hcoreId, rfl⟩

theorem laneOk_laneCreated (b : Build) (coreId k : Nat) : laneOk b coreId k (laneCreated b coreId k) :=
  ⟨ok_zero_status b _ _ (maskStatus_maskStatus b _), rfl, rfl, rfl⟩

/-! ## The two forms of the invariant inside a slot -/

/-- Every attached lane is sound. -/
def State.lanesOk (s : State) : Prop :=
  ∀ ls ∈ s.lanes, ∀ k : Fin Config.laneCap, laneOk s.build s.core.coreId k.val ls[k.val]

/-- What holds while a handler runs: the invariant but for register 0, and an open batch may have been stopped. -/
def State.inHandler (s : State) : Prop :=
  s.mem.wf ∧ (∀ c ∈ s.mem, c.1 < s.memSize) ∧ s.core.sound s.build ∧ s.core.laneIndex = none ∧ s.lanesOk ∧
    (∀ b ∈ s.batch, b.used < b.limit ∧ s.core.run = true)

/-- What holds once the handler's outcome is acted on, before the slot is counted: register 0 is zero again
(43_step_loop.md R177). -/
def State.afterHandler (s : State) : Prop := s.core.xRead 0 = 0 ∧ s.inHandler

theorem afterHandler_of_inv {s : State} (h : s.inv) : s.afterHandler := by
  obtain ⟨hwf, hbelow, ⟨hzero, hsound⟩, hindex, hlanes, hbatch⟩ := h
  refine ⟨hzero, hwf, hbelow, hsound, hindex, hlanes, fun b hb => ?_⟩
  obtain ⟨hused, _, hrun⟩ := hbatch b hb
  exact ⟨hused, hrun⟩

/-- The invariant is what holds after a handler when no open batch was stopped. -/
theorem inv_of_afterHandler {s : State} (h : s.afterHandler) (hstop : ∀ b ∈ s.batch, b.stopped = false) : s.inv := by
  obtain ⟨hzero, hwf, hbelow, hsound, hindex, hlanes, hbatch⟩ := h
  refine ⟨hwf, hbelow, ⟨hzero, hsound⟩, hindex, hlanes, fun b hb => ?_⟩
  obtain ⟨hused, hrun⟩ := hbatch b hb
  exact ⟨hused, hstop b hb, hrun⟩

theorem inv_of_no_batch {s : State} (h : s.afterHandler) (hb : s.batch = none) : s.inv :=
  inv_of_afterHandler h fun b hmem => by simp [hb] at hmem

/-! ## What each operation keeps -/

/-- A change of the processor state alone: sound, with its indices, and no running core stopped. -/
theorem State.inHandler.ofCore {s t : State} (h : s.inHandler) (hm : keepsMachine s t) (hsound : t.core.sound s.build)
    (hid : t.core.laneIndex = s.core.laneIndex ∧ t.core.coreId = s.core.coreId)
    (hrun : s.core.run = true → t.core.run = true) : t.inHandler := by
  obtain ⟨hwf, hbelow, _, hindex, hlanes, hbatch⟩ := h
  obtain ⟨elanes, emem, esize, ebuild, ebatch, _⟩ := hm
  obtain ⟨eindex, ecoreId⟩ := hid
  simp only [State.inHandler, State.lanesOk, elanes, emem, esize, ebuild, ebatch, eindex, ecoreId]
  exact ⟨hwf, hbelow, hsound, hindex, hlanes, fun b hb => (hbatch b hb).imp_right hrun⟩

section
variable {s : State}

theorem State.inHandler.core_sound (h : s.inHandler) : s.core.sound s.build := by
  obtain ⟨_, _, hsound, _⟩ := h
  exact hsound

theorem State.inHandler.core_cause (h : s.inHandler) : maskCause s.core.cause = s.core.cause := by
  obtain ⟨_, hcause, _⟩ := h.core_sound
  exact hcause

theorem State.inHandler.onCore (h : s.inHandler) {g : Proc → Proc} (hsound : (g s.core).sound s.build)
    (hid : (g s.core).laneIndex = s.core.laneIndex ∧ (g s.core).coreId = s.core.coreId)
    (hrun : s.core.run = true → (g s.core).run = true) : (s.onCore g).inHandler :=
  h.ofCore ⟨rfl, rfl, rfl, rfl, rfl, rfl⟩ hsound hid hrun

theorem State.inHandler.xWrite (h : s.inHandler) (i : Reg) (v : Word) :
    (s.onCore (fun p => p.xWrite i v)).inHandler := h

theorem State.inHandler.withLastFault (h : s.inHandler) (a : Word) : State.inHandler { s with lastFault := a } := h

theorem State.inHandler.statusWrite (h : s.inHandler) (v : IWord) : (statusWrite v s).inHandler :=
  h.ofCore ⟨rfl, rfl, rfl, rfl, rfl, rfl⟩ (h.core_sound.maskedStatus v) ⟨rfl, rfl⟩ id

/-- Every control-register write masks what it stores (41_register_status.md R106 to R110). -/
theorem State.inHandler.writeCReg (h : s.inHandler) (r : CReg) (v : Word) : (writeCReg r v s).inHandler := by
  cases r with
  | status => exact h.statusWrite _
  | compare => exact h.onCore (h.core_sound.withCause (maskCause_clearLine _ _ h.core_cause)) ⟨rfl, rfl⟩ id
  | cause => exact h.onCore (h.core_sound.withCause (maskCause_maskCause _)) ⟨rfl, rfl⟩ id
  | vecbank => exact h.onCore (h.core_sound.setLaneMask v) ⟨rfl, rfl⟩ id
  | epc | badvaddr | evec | count | coreid | k0 | k1 | tohost | fromhost => exact h

/-- A store that ends inside `MEM_SIZE` (20_memory.md R54). -/
theorem State.inHandler.writeLE (h : s.inHandler) {w : Nat} (a n : Nat) (v : BitVec w) (hfits : a + n ≤ s.memSize) :
    State.inHandler { s with mem := s.mem.writeLE a n v } := by
  obtain ⟨hwf, hbelow, hrest⟩ := h
  exact ⟨Memory_writeLE_wf _ a n v hwf, Memory_writeLE_below _ a n _ v hfits hbelow, hrest⟩

/-- A reset with no batch open, whatever register 0 held (70_reset_and_hazards.md R300). -/
theorem State.inHandler.resetAll (h : s.inHandler) (hb : s.batch = none) : (resetAll s).afterHandler := by
  obtain ⟨hwf, hbelow, _, hindex, hlanes, _⟩ := h
  obtain ⟨hzero, hsound⟩ := resetTo_ok s.build s.core
  refine ⟨hzero, hwf, hbelow, hsound, hindex, fun ls hls k => ?_, fun b hmem => by simp [hb] at hmem⟩
  obtain ⟨old, hold, rfl⟩ := Option.mem_map.mp hls
  rw [Vector.getElem_map]
  exact laneOk_resetTo (hlanes old hold k)

theorem State.inHandler.haltCore (h : s.inHandler) : (haltCore s).afterHandler := by
  obtain ⟨hwf, hbelow, hsound, hindex, hlanes, _⟩ := h
  exact State.inHandler.resetAll (s := { s with batch := none })
    ⟨hwf, hbelow, hsound, hindex, hlanes, fun _ hb => nomatch hb⟩ rfl

theorem State.inHandler.stopBatch (h : s.inHandler) : (stopBatch s).inHandler := by
  obtain ⟨hwf, hbelow, hsound, hindex, hlanes, hbatch⟩ := h
  refine ⟨hwf, hbelow, hsound, hindex, hlanes, fun b hb => ?_⟩
  obtain ⟨old, hold, rfl⟩ := Option.mem_map.mp hb
  exact hbatch old hold

theorem State.inHandler.cleared (h : s.inHandler) : (cleared s).afterHandler :=
  ⟨by simp [Machine.cleared], h.xWrite 0 0⟩

theorem State.afterHandler.emit (h : s.afterHandler) (line : TraceLine) : (s.emit line).afterHandler := by
  unfold State.emit
  split <;> exact h

/-- A legal trap code fits the code field of cause (60_exceptions.md R250, R256). -/
theorem State.inHandler.enterTrap (h : s.inHandler) {code : Nat} (hc : code < Config.numTraps) :
    (enterTrap code s).inHandler :=
  have hcause := maskCause_trapCause code _ (hc.trans (by decide)) h.core_cause
  (h.statusWrite _).onCore ((h.core_sound.maskedStatus _).withCause hcause) ⟨rfl, rfl⟩ id

theorem State.afterHandler.deliverTrap (h : s.afterHandler) {code : Nat} {t : State}
    (ht : deliverTrap code s = .next t) : t.afterHandler := by
  obtain ⟨hc, _, rfl⟩ := deliverTrap_next ht
  obtain ⟨hzero, hin⟩ := h.emit (.trap s.core.coreId code s.core.pc)
  exact ⟨hzero, hin.enterTrap hc⟩

/-! ## Instructions and slots -/

/-- Acting on any outcome gives back register 0 (43_step_loop.md R177 to R182). -/
theorem State.inHandler.finish (h : s.inHandler) {o : HandlerOut} {t : State} (ht : finish o s = .next t) :
    t.afterHandler := by
  cases o with
  | next npc =>
    cases ht
    exact h.cleared
  | fault code => exact h.cleared.deliverTrap ht
  | stop =>
    cases ht
    obtain ⟨hzero, hin⟩ := h.cleared
    exact ⟨hzero, hin.stopBatch⟩
  | vtOther =>
    cases ht
    exact h.cleared
  | halt =>
    cases ht
    exact (h.xWrite 0 0).haltCore

theorem State.inHandler.finishReg (h : s.inHandler) {rd : Reg} {v : Word} {t : State}
    (ht : finishReg rd v s = .next t) : t.afterHandler := (h.xWrite rd v).finish ht

theorem State.inHandler.execLw (h : s.inHandler) {rd rs1 : Reg} {imm : BitVec 12} {t : State}
    (ht : execLw rd rs1 imm s = .next t) : t.afterHandler := by
  unfold Machine.execLw at ht
  obtain ⟨_, hr⟩ | ⟨c, _, hr⟩ | hr := memRead_cases s (s.core.dataAddr rs1 imm) 4 <;> simp only [hr] at ht
  · exact h.finishReg ht
  · exact (h.withLastFault _).finish ht
  · cases ht

theorem State.inHandler.execSw (h : s.inHandler) {rs2 rs1 : Reg} {imm : BitVec 12} {t : State}
    (ht : execSw rs2 rs1 imm s = .next t) : t.afterHandler := by
  unfold Machine.execSw at ht
  obtain ⟨⟨_, _, hfits⟩, hw⟩ | ⟨c, _, hw⟩ | hw :=
    memWrite_cases s (s.core.dataAddr rs1 imm) 4 (low32 (s.core.xRead rs2)) <;> simp only [hw] at ht
  · exact (h.writeLE _ 4 _ hfits).finish ht
  · exact (h.withLastFault _).finish ht
  · cases ht

theorem State.inHandler.execMtcr (h : s.inHandler) {cr : BitVec 12} {rs1 rd : Reg} {t : State}
    (ht : execMtcr cr rs1 rd s = .next t) : t.afterHandler := by
  unfold Machine.execMtcr at ht
  split at ht
  · exact h.finish ht
  · obtain ⟨_, hw⟩ | ⟨r, _, hw⟩ := crWrite_cases cr.toNat (s.core.xRead rs1) s <;> rw [hw] at ht
    · exact h.finish ht
    · exact (h.writeCReg r _).finish ht

theorem State.inHandler.execMfcr (h : s.inHandler) {rd rs1 : Reg} {cr : BitVec 12} {t : State}
    (ht : execMfcr rd cr rs1 s = .next t) : t.afterHandler := by
  unfold Machine.execMfcr at ht
  split at ht
  · exact h.finish ht
  · split at ht
    · exact h.finish ht
    · exact h.finishReg ht

theorem State.inHandler.execEret (h : s.inHandler) {t : State} (ht : execEret s = .next t) : t.afterHandler := by
  unfold Machine.execEret at ht
  split at ht
  · exact h.finish ht
  · exact (h.statusWrite _).finish ht

theorem State.inHandler.execSetvl (h : s.inHandler) {rd rs1 : Reg} {imm : BitVec 12} {t : State}
    (ht : execSetvl rd rs1 imm s = .next t) : t.afterHandler := by
  unfold Machine.execSetvl at ht
  split at ht
  · exact h.finish ht
  · exact (h.onCore (h.core_sound.setVl _) ⟨rfl, rfl⟩ id).finishReg ht

theorem State.inHandler.execVcfg (h : s.inHandler) {rs1 rs2 rd : Reg} {t : State}
    (ht : execVcfg rs1 rs2 rd s = .next t) : t.afterHandler := by
  unfold Machine.execVcfg at ht
  split at ht
  · exact h.finish ht
  · exact (h.onCore (h.core_sound.vcfg _ _) ⟨rfl, rfl⟩ id).finish ht

/-- Every instruction of the fixture table. -/
theorem State.inHandler.exec (h : s.inHandler) {i : Instr} {t : State} (ht : exec i s = .next t) :
    t.afterHandler := by
  cases i with
  | addi | add | sub => exact h.finishReg ht
  | lw => exact h.execLw ht
  | sw => exact h.execSw ht
  | jal rd off => exact (h.xWrite rd s.core.pcNext).finish (o := .next _) ht
  | bne => exact h.finish (o := .next _) ht
  | ecall => exact h.finish (o := .fault trapSyscall) ht
  | stop => exact h.finish (o := .stop) ht
  | halt => exact h.finish (o := .halt) ht
  | eret => exact h.execEret ht
  | mtcr cr rs1 rd => exact h.execMtcr (rd := rd) ht
  | mfcr rd cr rs1 => exact h.execMfcr (rs1 := rs1) ht
  | setvl rd rs1 imm => exact h.execSetvl (imm := imm) ht
  | vcfg rs1 rs2 rd => exact h.execVcfg (rd := rd) ht

/-- What a slot does: an interrupt, a fetch fault, an instruction or an illegal word (43_step_loop.md R172). -/
theorem State.afterHandler.slotBody (h : s.afterHandler) {t : State} (ht : slotBody fixtureSystem s = .next t) :
    t.afterHandler := by
  obtain ⟨k, _, _, hb⟩ | ⟨_, ⟨c, _, hb⟩ | hb | ⟨_, hb⟩⟩ := slotBody_cases fixtureSystem rfl s <;> rw [hb] at ht
  · exact h.deliverTrap ht
  · exact State.afterHandler.deliverTrap (s := { s with lastFault := s.core.pc }) h ht
  · cases ht
  · have hemit := h.emit (.fetched s.core.coreId s.core.pc (s.mem.read4 s.core.pc.toNat))
    obtain ⟨i, _, hw⟩ | ⟨_, hw⟩ := runWord_fixture (s.mem.read4 s.core.pc.toNat) s <;> rw [hw] at ht
    · exact hemit.2.exec ht
    · exact hemit.deliverTrap ht

/-- Counting the slot keeps a batch open only with a slot left (43_step_loop.md R170, R183). -/
theorem State.afterHandler.endSlot (h : s.afterHandler) : (endSlot s).inv := by
  obtain ⟨hb, he⟩ | ⟨b, hb, hstop, hleft, he⟩ | ⟨b, hb, _, he⟩ := endSlot_cases s <;> rw [he]
  · exact inv_of_no_batch h hb
  · obtain ⟨hzero, hwf, hbelow, hsound, hindex, hlanes, hbatch⟩ := h
    obtain ⟨_, hrun⟩ := hbatch b hb
    refine ⟨hwf, hbelow, ⟨hzero, hsound⟩, hindex, hlanes, fun b' hb' => ?_⟩
    obtain rfl := Option.mem_some.mp hb'
    exact ⟨hleft, hstop, hrun⟩
  · obtain ⟨hzero, hwf, hbelow, hsound, hindex, hlanes, _⟩ := h
    exact ⟨hwf, hbelow, ⟨hzero, hsound.countUpdate _⟩, hindex, hlanes, fun _ hb' => nomatch hb'⟩

theorem slot_keeps_inv (h : s.inv) {t : State} (ht : slot s = .next t) : t.inv := by
  obtain ⟨u, hu, rfl⟩ := afterSlot_next ht
  exact ((afterHandler_of_inv h).slotBody hu).endSlot

/-! ## The harness's operations (00_scope.md R6) -/

/-- `Step(N, trace)` opens a batch only with a slot to run and a runnable core (43_step_loop.md R171, R172). -/
theorem openBatch_inv (h : s.inv) (n : Nat) (trace : Bool) : (openBatch n trace s).inv := by
  obtain ⟨hwf, hbelow, ⟨hzero, hsound⟩, hindex, hlanes, hbatch⟩ := h
  unfold openBatch
  split
  · exact ⟨hwf, hbelow, ⟨hzero, hsound⟩, hindex, hlanes, hbatch⟩
  · next hrun =>
    split
    · exact ⟨hwf, hbelow, ⟨hzero, Proc.sound.countUpdate hsound 0⟩, hindex, hlanes, hbatch⟩
    · next hn =>
      refine ⟨hwf, hbelow, ⟨hzero, hsound⟩, hindex, hlanes, fun b hb => ?_⟩
      obtain rfl := Option.mem_some.mp hb
      exact ⟨Nat.pos_of_ne_zero hn, rfl, by simpa using hrun⟩

/-- Every lane is attached as its creation leaves it (42_vector_lanes.md R150). -/
theorem attachLanes_inv (h : s.inv) {t : State} (ht : attachLanes s = .next t) : t.inv := by
  unfold attachLanes at ht
  split at ht
  · cases ht
  · cases ht
    obtain ⟨hwf, hbelow, hcore, hindex, _, hbatch⟩ := h
    refine ⟨hwf, hbelow, hcore, hindex, fun ls hls k => ?_, hbatch⟩
    obtain rfl := Option.mem_some.mp hls
    rw [Vector.getElem_ofFn]
    exact laneOk_laneCreated _ _ _

theorem harnessMemWrite_inv (h : s.inv) {a : Nat} {b : Byte} {t : State} (ht : harnessMemWrite a b s = .next t) :
    t.inv := by
  unfold harnessMemWrite at ht
  split at ht
  · next ha =>
    cases ht
    obtain ⟨hwf, hbelow, hrest⟩ := h
    exact ⟨Memory_write_wf _ _ _ hwf, Memory_write_below _ _ _ _ ha hbelow, hrest⟩
  · cases ht

/-- Between batches every operation of the harness keeps the invariant. -/
theorem harnessOp_keeps_inv (h : s.inv) (hb : s.batch = none) {op : HarnessOp} {t : State}
    (ht : harnessOp op s = .next t) : t.inv := by
  obtain ⟨hzero, hin⟩ := afterHandler_of_inv h
  cases op with
  | attachLanes => exact attachLanes_inv h ht
  | memWrite a b => exact harnessMemWrite_inv h ht
  | reset =>
    cases ht
    exact inv_of_no_batch (hin.resetAll hb) hb
  | step n trace =>
    cases ht
    exact openBatch_inv h n trace
  | deliverIpi =>
    cases ht
    have hcause := maskCause_raiseLine Config.irqIpi _ (by decide) hin.core_cause
    exact inv_of_no_batch ⟨hzero, hin.onCore (hin.core_sound.withCause hcause) ⟨rfl, rfl⟩ fun _ => rfl⟩ hb
  | start =>
    cases ht
    exact inv_of_no_batch ⟨hzero, hin.onCore hin.core_sound ⟨rfl, rfl⟩ fun _ => rfl⟩ hb
  | statusWrite v =>
    cases ht
    exact inv_of_no_batch ⟨hzero, hin.statusWrite _⟩ hb
  | fsrWrite v =>
    cases ht
    exact inv_of_no_batch ⟨hzero, hin.onCore (hin.core_sound.maskedFsr _) ⟨rfl, rfl⟩ id⟩ hb
  | crWrite n v =>
    cases ht
    obtain ⟨_, hw⟩ | ⟨r, _, hw⟩ := crWrite_cases n v s <;> rw [hw]
    · exact h
    · exact inv_of_no_batch ⟨by simpa [Proc.xRead] using hzero, hin.writeCReg r v⟩ (by simpa using hb)

theorem harnessStep_keeps_inv (h : s.inv) (hb : s.batch = none) {t : State} (ht : harnessStep s = .next t) : t.inv := by
  unfold harnessStep at ht
  split at ht
  · cases ht
    exact h
  · next rest _ => exact harnessOp_keeps_inv (s := { s with harness := rest }) h hb ht

end

/-- Settles O54: with a batch open the step is a slot, between batches the harness's next operation. -/
theorem stepKeepsInvariant : Obligations.StepKeepsInvariant := by
  intro s t h ht
  cases hb : s.batch with
  | some b => exact slot_keeps_inv h (step_of_batch_some hb ▸ ht)
  | none =>
    simp only [step, hb] at ht
    exact harnessStep_keeps_inv h hb ht

end Sys2Proof.Machine
end

section
/-! PROOFS, memory (20_memory.md). What a store of any width leaves at every address, and so what a load or a fetch
reads after it; and what each of the four outcomes of the fixture memory's checks answers (R54). -/

namespace Sys2Proof.Machine

/-! ## Stored bytes read back (20_memory.md R46) -/

/-- A store of `n` bytes is `n` stores of one byte; the last of them puts the highest byte. -/
theorem Memory_read_writeLE {m : Memory} (h : m.wf) (a n c : Nat) {w : Nat} (v : BitVec w) :
    (m.writeLE a n v).read c = if a ≤ c ∧ c < a + n then v.extractLsb' (8 * (c - a)) 8 else m.read c := by
  induction n with
  | zero =>
    rw [if_neg (by omega)]
    rfl
  | succ n ih =>
    simp only [Memory.writeLE]
    by_cases hc : c = a + n
    · subst hc
      rw [Memory_read_write_same _ _ _ (Memory_writeLE_wf m a n v h), if_pos (by omega), Nat.add_sub_cancel_left]
    · rw [Memory_read_write_other _ _ _ _ hc, ih]
      exact if_congr (by omega) rfl rfl

/-- A byte of a value stored at `a`, read at its own address. -/
theorem Memory_read_writeLE_byte {m : Memory} (h : m.wf) (a : Nat) {n k : Nat} (hk : k < n) {w : Nat} (v : BitVec w) :
    (m.writeLE a n v).read (a + k) = v.extractLsb' (8 * k) 8 := by
  rw [Memory_read_writeLE h, if_pos (by omega), Nat.add_sub_cancel_left]

/-- A load of the width just stored answers the low bytes of the value. -/
theorem Memory_readLE_writeLE {m : Memory} (h : m.wf) (a n : Nat) {w : Nat} (v : BitVec w) :
    (m.writeLE a n v).readLE a n = v.setWidth (8 * n) := by
  apply BitVec.eq_of_getLsbD_eq
  intro i hi
  rw [getLsbD_readLE, Memory_read_writeLE_byte h a (by omega : i / 8 < n), BitVec.getLsbD_extractLsb',
    BitVec.getLsbD_setWidth, Nat.div_add_mod]
  simp [hi, Nat.mod_lt]

theorem Memory_read4_write4 {m : Memory} (h : m.wf) (a : Nat) (v : IWord) : (m.write4 a v).read4 a = v :=
  (Memory_readLE_writeLE h a 4 v).trans (BitVec.setWidth_eq v)

/-- Settles O51: a word is a value of four bytes, and each of them reads back. -/
theorem storedWordReadsBack : Obligations.StoredWordReadsBack := by
  intro m a c v h
  exact ⟨Memory_read_writeLE h a 4 c v, Memory_read4_write4 h a v⟩

/-! ## The checks of an access, outcome by outcome (20_memory.md R54) -/

section
variable {s : State} {n : Nat} {a : Word}

theorem checkAccess_translated (m o : Nat) (hv : s.port.vm = true) :
    checkAccess s n m o a = .refused .translation := by
  simp only [checkAccess, hv, if_true]

theorem checkAccess_misaligned (m o : Nat) (hv : s.port.vm = false) (ha : a.toNat % n ≠ 0) :
    checkAccess s n m o a = .fault m { s with lastFault := a } := by
  simp [checkAccess, hv, ha]

theorem checkAccess_outside (m o : Nat) (hv : s.port.vm = false) (ha : a.toNat % n = 0)
    (hr : s.memSize < a.toNat + n) : checkAccess s n m o a = .fault o { s with lastFault := a } := by
  simp [checkAccess, hv, ha, hr]

end

/-- Settles O56: a load and a store make the same checks, and differ in the codes they report and in what they do once
allowed. -/
theorem dataAccessOfAnyWidth : Obligations.DataAccessOfAnyWidth := by
  refine ⟨fun s a n w v => ⟨fun hv => ?refused, fun hv ha => ?misaligned, fun hv ha hr => ?outside, fun h => ?performed⟩,
    getLsbD_readLE, fun m a n c w v h => Memory_read_writeLE h a n c v⟩
  case refused => simp only [memRead, memWrite, checkAccess_translated _ _ hv, and_self]
  case misaligned =>
    simp only [memRead, memWrite, checkAccess_misaligned _ _ hv ha]
    exact ⟨rfl, rfl⟩
  case outside =>
    simp only [memRead, memWrite, checkAccess_outside _ _ hv ha hr]
    exact ⟨rfl, rfl⟩
  case performed => exact ⟨memRead_ok s a n h, memWrite_ok s a n v h⟩

/-! ## What a fetch sees (20_memory.md R53) -/

/-- The word at an address as the concatenation of its bytes, the highest address first. -/
theorem Memory_read4_eq_append (m : Memory) (a : Nat) :
    m.read4 a = (m.read (a + 3) ++ m.read (a + 2) ++ m.read (a + 1) ++ m.read a : BitVec 32) := by
  apply BitVec.eq_of_getLsbD_eq
  intro i hi
  rw [Memory.read4, getLsbD_readLE]
  simp only [BitVec.getLsbD_append]
  interval_cases i <;> simp

/-- A store of a word that was performed put it into memory, and left its address one that can be accessed. -/
theorem mem_of_memWrite_ok {s t : State} {a : Word} {v : IWord} (h : memWrite s a 4 v = .ok t) :
    accessOk t a ∧ t.mem = s.mem.write4 a.toNat v := by
  obtain ⟨ha, h'⟩ | ⟨c, _, h'⟩ | h' := memWrite_cases s a 4 v <;> rw [h'] at h <;> cases h
  exact ⟨ha, rfl⟩

/-- Settles O52: a fetch reads the word memory holds, and after a store at its address that is the word stored. -/
theorem fetchSeesEarlierStore : Obligations.FetchSeesEarlierStore := by
  refine ⟨fun t a ec h => ?_, fun s t a v ec hwf hw => ?_⟩
  · rw [memFetch_ok t a ec h, Memory_read4_eq_append]
  · obtain ⟨ha, hmem⟩ := mem_of_memWrite_ok hw
    rw [memFetch_ok t a ec ha, hmem, Memory_read4_write4 hwf]

end Sys2Proof.Machine
end

section
/-! PROOFS, encoding (30_encoding.md). The fields of each format are read back from the word they were put into, and a
word is put together again from its own fields (R69, R70); no word fits two rows of the table (R71). With both, encoding
and decoding undo each other. -/

namespace Sys2Proof

/-! ## Fields put into a word and read back -/

/-- A field read at the place it was put is the value put there. -/
@[simp] theorem extractLsb'_put_same {m pos n : Nat} (v : BitVec n) (h : pos + n ≤ m) :
    (put m pos v).extractLsb' pos n = v := by
  apply BitVec.eq_of_getLsbD_eq
  intro i hi
  have hm : pos + i < m := by omega
  simp only [BitVec.getLsbD_extractLsb', getLsbD_put, Nat.add_sub_cancel_left]
  simp [hi, hm]

/-- A field read beside the place where a value was put sees nothing of it. -/
@[simp] theorem extractLsb'_put_apart {m p k : Nat} (v : BitVec k) {pos n : Nat} (h : pos + n ≤ p ∨ p + k ≤ pos) :
    (put m p v).extractLsb' pos n = 0#n := by
  apply BitVec.eq_of_getLsbD_eq
  intro i hi
  simp only [BitVec.getLsbD_extractLsb', getLsbD_put, BitVec.getLsbD_zero]
  obtain h | h := h
  · simp [show ¬ p ≤ pos + i by omega]
  · simp [BitVec.getLsbD_of_ge v (pos + i - p) (by omega)]

/-- Two fields of one value that stand next to each other are one longer field. -/
theorem put_or_put_adjacent {l m : Nat} (v : BitVec l) {a n b k : Nat} (h : a + n = b) :
    put m b (v.extractLsb' b k) ||| put m a (v.extractLsb' a n) = put m a (v.extractLsb' a (n + k)) := by
  subst h
  apply BitVec.eq_of_getLsbD_eq
  intro i hi
  simp only [BitVec.getLsbD_or, getLsbD_put, BitVec.getLsbD_extractLsb', hi, decide_true, Bool.true_and]
  by_cases ha : a ≤ i
  · obtain ⟨j, rfl⟩ := Nat.exists_eq_add_of_le ha
    by_cases hj : j < n
    · simp [hj, show j < n + k by omega, show ¬ n ≤ j by omega]
    · obtain ⟨j, rfl⟩ := Nat.exists_eq_add_of_le (Nat.le_of_not_lt hj)
      simp [Nat.add_assoc, Nat.add_sub_add_left]
  · simp [ha, show ¬ a + n ≤ i by omega]

/-- The field of all bits is the value. -/
theorem put_zero_extractLsb'_zero {m : Nat} (v : BitVec m) : put m 0 (v.extractLsb' 0 m) = v := by
  simp [put]

/-- An even offset is all of its bits but bit 0. -/
theorem put_one_extractLsb'_one {n : Nat} {off : BitVec (n + 1)} (h : evenOffset off = true) :
    put (n + 1) 1 (off.extractLsb' 1 n) = off := by
  have h0 : off[0] = false := by simpa [evenOffset] using h
  apply BitVec.eq_of_getLsbD_eq
  intro i hi
  simp only [getLsbD_put, BitVec.getLsbD_extractLsb', hi]
  cases i with
  | zero => simp [h0]
  | succ j => simp [Nat.lt_of_succ_lt_succ hi, Nat.add_comm 1 j]

/-- A field that lies inside a mask is decided by the masked word. -/
theorem extractLsb'_of_masked {w m o : IWord} {pos n : Nat} (h : w &&& m = o)
    (hm : m.extractLsb' pos n = BitVec.allOnes n) : w.extractLsb' pos n = o.extractLsb' pos n := by
  rw [← h, BitVec.extractLsb'_and, hm, BitVec.and_allOnes]

/-! ## The immediates that a format scatters (30_encoding.md R70) -/

theorem immS_of_pieces (imm : BitVec 12) :
    put 12 5 (imm.extractLsb' 5 7) ||| put 12 0 (imm.extractLsb' 0 5) = imm := by
  simp only [put_or_put_adjacent, Nat.reduceAdd]
  exact put_zero_extractLsb'_zero imm

/-- Format B drops bit 0 of the offset, which is 0 in an even one. -/
theorem immB_of_pieces {off : BitVec 13} (h : evenOffset off = true) :
    put 13 12 (off.extractLsb' 12 1) ||| put 13 11 (off.extractLsb' 11 1) ||| put 13 5 (off.extractLsb' 5 6) |||
      put 13 1 (off.extractLsb' 1 4) = off := by
  simp only [put_or_put_adjacent, Nat.reduceAdd]
  exact put_one_extractLsb'_one h

/-- Format J drops bit 0 of the offset, which is 0 in an even one. -/
theorem immJ_of_pieces {off : BitVec 21} (h : evenOffset off = true) :
    put 21 20 (off.extractLsb' 20 1) ||| put 21 12 (off.extractLsb' 12 8) ||| put 21 11 (off.extractLsb' 11 1) |||
      put 21 1 (off.extractLsb' 1 10) = off := by
  simp only [put_or_put_adjacent, Nat.reduceAdd]
  exact put_one_extractLsb'_one h

theorem evenOffset_fieldImmB (w : IWord) : evenOffset (fieldImmB w) = true := by
  simp only [evenOffset, fieldImmB, BitVec.getLsbD_or, getLsbD_put]
  simp

theorem evenOffset_fieldImmJ (w : IWord) : evenOffset (fieldImmJ w) = true := by
  simp only [evenOffset, fieldImmJ, BitVec.getLsbD_or, getLsbD_put]
  simp

/-! ## The fields of an encoded word (30_encoding.md R69) -/

section
variable (rd rs1 rs2 : Reg) (f : BitVec 3) (g op : BitVec 7)

theorem fields_encodeR : fieldRd (encodeR g rs2 rs1 f rd op) = rd ∧ fieldRs1 (encodeR g rs2 rs1 f rd op) = rs1 ∧
    fieldRs2 (encodeR g rs2 rs1 f rd op) = rs2 := by
  simp [fieldRd, fieldRs1, fieldRs2, encodeR, BitVec.extractLsb'_or, toFin_regBits]

theorem fields_encodeI (imm : BitVec 12) : fieldRd (encodeI imm rs1 f rd op) = rd ∧
    fieldRs1 (encodeI imm rs1 f rd op) = rs1 ∧ fieldImmI (encodeI imm rs1 f rd op) = imm := by
  simp [fieldRd, fieldRs1, fieldImmI, encodeI, BitVec.extractLsb'_or, toFin_regBits]

theorem fields_encodeS (imm : BitVec 12) : fieldRs2 (encodeS imm rs2 rs1 f op) = rs2 ∧
    fieldRs1 (encodeS imm rs2 rs1 f op) = rs1 ∧ fieldImmS (encodeS imm rs2 rs1 f op) = imm := by
  simp [fieldRs1, fieldRs2, fieldImmS, encodeS, BitVec.extractLsb'_or, toFin_regBits, immS_of_pieces]

theorem fields_encodeB {off : BitVec 13} (h : evenOffset off = true) : fieldRs1 (encodeB off rs2 rs1 f op) = rs1 ∧
    fieldRs2 (encodeB off rs2 rs1 f op) = rs2 ∧ fieldImmB (encodeB off rs2 rs1 f op) = off := by
  simp [fieldRs1, fieldRs2, fieldImmB, encodeB, BitVec.extractLsb'_or, toFin_regBits, immB_of_pieces h]

theorem fields_encodeJ {off : BitVec 21} (h : evenOffset off = true) : fieldRd (encodeJ off rd op) = rd ∧
    fieldImmJ (encodeJ off rd op) = off := by
  simp [fieldRd, fieldImmJ, encodeJ, BitVec.extractLsb'_or, toFin_regBits, immJ_of_pieces h]

end

/-! ## A word from its own fields -/

section
variable (w : IWord)

theorem encodeR_fields : encodeR (w.extractLsb' 25 7) (fieldRs2 w) (fieldRs1 w) (w.extractLsb' 12 3) (fieldRd w)
    (w.extractLsb' 0 7) = w := by
  simp only [encodeR, fieldRd, fieldRs1, fieldRs2, regBits_toFin, put_or_put_adjacent, Nat.reduceAdd]
  exact put_zero_extractLsb'_zero w

theorem encodeI_fields : encodeI (fieldImmI w) (fieldRs1 w) (w.extractLsb' 12 3) (fieldRd w)
    (w.extractLsb' 0 7) = w := by
  simp only [encodeI, fieldRd, fieldRs1, fieldImmI, regBits_toFin, put_or_put_adjacent, Nat.reduceAdd]
  exact put_zero_extractLsb'_zero w

theorem pieces_fieldImmS : (fieldImmS w).extractLsb' 5 7 = w.extractLsb' 25 7 ∧
    (fieldImmS w).extractLsb' 0 5 = w.extractLsb' 7 5 := by
  simp [fieldImmS, BitVec.extractLsb'_or]

theorem pieces_fieldImmB : (fieldImmB w).extractLsb' 12 1 = w.extractLsb' 31 1 ∧
    (fieldImmB w).extractLsb' 5 6 = w.extractLsb' 25 6 ∧ (fieldImmB w).extractLsb' 1 4 = w.extractLsb' 8 4 ∧
    (fieldImmB w).extractLsb' 11 1 = w.extractLsb' 7 1 := by
  simp [fieldImmB, BitVec.extractLsb'_or]

theorem pieces_fieldImmJ : (fieldImmJ w).extractLsb' 20 1 = w.extractLsb' 31 1 ∧
    (fieldImmJ w).extractLsb' 1 10 = w.extractLsb' 21 10 ∧ (fieldImmJ w).extractLsb' 11 1 = w.extractLsb' 20 1 ∧
    (fieldImmJ w).extractLsb' 12 8 = w.extractLsb' 12 8 := by
  simp [fieldImmJ, BitVec.extractLsb'_or]

theorem encodeS_fields : encodeS (fieldImmS w) (fieldRs2 w) (fieldRs1 w) (w.extractLsb' 12 3)
    (w.extractLsb' 0 7) = w := by
  simp only [encodeS, fieldRs1, fieldRs2, pieces_fieldImmS, regBits_toFin, put_or_put_adjacent, Nat.reduceAdd]
  exact put_zero_extractLsb'_zero w

theorem encodeB_fields : encodeB (fieldImmB w) (fieldRs2 w) (fieldRs1 w) (w.extractLsb' 12 3)
    (w.extractLsb' 0 7) = w := by
  simp only [encodeB, fieldRs1, fieldRs2, pieces_fieldImmB, regBits_toFin, put_or_put_adjacent, Nat.reduceAdd]
  exact put_zero_extractLsb'_zero w

theorem encodeJ_fields : encodeJ (fieldImmJ w) (fieldRd w) (w.extractLsb' 0 7) = w := by
  simp only [encodeJ, fieldRd, pieces_fieldImmJ, regBits_toFin, put_or_put_adjacent, Nat.reduceAdd]
  exact put_zero_extractLsb'_zero w

end

/-! ## The rows of the table (30_encoding.md R62, R71) -/

theorem Entry.fits_iff {α : Type} {e : Entry α} {w : IWord} : e.fits w = true ↔ w &&& e.mask = e.opcode := beq_iff_eq

/-- Somewhere both masks look, the two entries ask for different bits. -/
abbrev Entry.conflicts {α : Type} (e e' : Entry α) : Prop := e.opcode &&& e'.mask ≠ e'.opcode &&& e.mask

theorem opTable_conflicts : opTable.Pairwise Entry.conflicts := by decide

/-- In a table whose entries shut each other out, an entry that fits is the one selected. -/
theorem decodeIn_of_fits {α : Type} {ot : List (Entry α)} (hot : ot.Pairwise Entry.conflicts) {e : Entry α}
    (he : e ∈ ot) {w : IWord} (hw : w &&& e.mask = e.opcode) : decodeIn ot w = some e.handler := by
  induction hot with
  | nil => cases he
  | @cons first rest hfirst _ ih =>
    obtain rfl | hrest := List.mem_cons.mp he
    · simp only [decodeIn, List.find?_cons, Entry.fits_iff.mpr hw, Option.map_some]
    · have hnot : first.fits w = false := Bool.eq_false_iff.mpr fun h =>
        not_fits_of_conflict (Entry.fits_iff.mp h) (hfirst e hrest) hw
      simpa only [decodeIn, List.find?_cons, hnot] using ih hrest

/-- The fixture table answers for a word exactly when a row fits it. -/
theorem decodeWord_eq_some_iff {w : IWord} {i : Instr} :
    decodeWord w = some i ↔ ∃ e ∈ opTable, w &&& e.mask = e.opcode ∧ e.handler w = i := by
  constructor
  · intro h
    obtain ⟨build, hbuild, hi⟩ := Option.map_eq_some_iff.mp h
    obtain ⟨e, he, rfl⟩ := Option.map_eq_some_iff.mp hbuild
    have hfits : e.fits w = true := List.find?_some (p := fun e : Entry _ => e.fits w) he
    exact ⟨e, List.mem_of_find?_eq_some he, Entry.fits_iff.mp hfits, hi⟩
  · rintro ⟨e, he, hw, rfl⟩
    rw [decodeWord, decodeIn_of_fits opTable_conflicts he hw, Option.map_some]

/-! ## Decoding what was encoded -/

section
open Laws.EncodedWordFitsRow

/-- An instruction's word decodes to it when its own row reads its fields back. -/
theorem decodeWord_encode_of_row {i : Instr} {e : Entry (IWord → Instr)} (hfits : Statement i)
    (hrow : opTable[row i]? = some e) (hread : e.handler (encode i) = i) : decodeWord (encode i) = some i := by
  have hword : e.fits (encode i) = true := by simpa [Statement, hrow] using hfits
  exact decodeWord_eq_some_iff.mpr ⟨e, List.mem_of_getElem? hrow, Entry.fits_iff.mp hword, hread⟩

theorem decodeWord_encode {i : Instr} (h : wellFormed i = true) : decodeWord (encode i) = some i := by
  cases i with
  | addi rd rs1 imm => exact decodeWord_encode_of_row (addi ..) rfl (by simp [encode, fields_encodeI])
  | add rd rs1 rs2 => exact decodeWord_encode_of_row (add ..) rfl (by simp [encode, fields_encodeR])
  | sub rd rs1 rs2 => exact decodeWord_encode_of_row (sub ..) rfl (by simp [encode, fields_encodeR])
  | lw rd rs1 imm => exact decodeWord_encode_of_row (lw ..) rfl (by simp [encode, fields_encodeI])
  | sw rs2 rs1 imm => exact decodeWord_encode_of_row (sw ..) rfl (by simp [encode, fields_encodeS])
  | bne rs1 rs2 off => exact decodeWord_encode_of_row (bne ..) rfl (by simp [encode, fields_encodeB _ _ _ _ h])
  | jal rd off => exact decodeWord_encode_of_row (jal ..) rfl (by simp [encode, fields_encodeJ _ _ h])
  | ecall => exact decodeWord_encode_of_row ecall rfl rfl
  | eret => exact decodeWord_encode_of_row eret rfl rfl
  | mtcr cr rs1 rd => exact decodeWord_encode_of_row (mtcr ..) rfl (by simp [encode, fields_encodeI])
  | mfcr rd cr rs1 => exact decodeWord_encode_of_row (mfcr ..) rfl (by simp [encode, fields_encodeI])
  | stop => exact decodeWord_encode_of_row stop rfl rfl
  | setvl rd rs1 imm => exact decodeWord_encode_of_row (setvl ..) rfl (by simp [encode, fields_encodeI])
  | vcfg rs1 rs2 rd => exact decodeWord_encode_of_row (vcfg ..) rfl (by simp [encode, fields_encodeR])
  | halt => exact decodeWord_encode_of_row halt rfl rfl

end

/-- The bytes of a word, lowest address first, compose to it (20_memory.md R46). -/
theorem wordOfBytes_byteOfWord (w : IWord) :
    wordOfBytes (byteOfWord w 0) (byteOfWord w 1) (byteOfWord w 2) (byteOfWord w 3) = w := by
  simp only [wordOfBytes, byteOfWord, put_or_put_adjacent, Nat.reduceMul, Nat.reduceAdd]
  exact put_zero_extractLsb'_zero w

theorem decode_bytesOfWord_append {w : IWord} {i : Instr} (h : decodeWord w = some i) (rest : List Byte) :
    decode (bytesOfWord w ++ rest) = .ok (i, rest) := by
  simp only [bytesOfWord, List.cons_append, List.nil_append, decode, wordOfBytes_byteOfWord, h]

/-- Settles O2: the word fits its instruction's own row and no other, and the row reads the fields back. -/
theorem decodeOfEncodeIsIdentity : Obligations.DecodeOfEncodeIsIdentity := fun _ rest h =>
  decode_bytesOfWord_append (decodeWord_encode h) rest

/-! ## Encoding what was decoded

The converse of the `_fixed` lemmas. What a row's mask fixes are the format's opcode, funct3 and funct7, which the
encoder writes back; every other bit of the word lies in a field. -/

section
variable {w o : IWord} {f : BitVec 3} {g op : BitVec 7}

theorem encodeR_of_masked (h : w &&& 0xFE00707F = put 32 25 g ||| put 32 12 f ||| put 32 0 op) :
    encodeR g (fieldRs2 w) (fieldRs1 w) f (fieldRd w) op = w := by
  obtain ⟨rfl, rfl, rfl⟩ : w.extractLsb' 25 7 = g ∧ w.extractLsb' 12 3 = f ∧ w.extractLsb' 0 7 = op := by
    simp [extractLsb'_of_masked h, BitVec.extractLsb'_or]
  exact encodeR_fields w

/-- A word's opcode and funct3, read off its masked bits. -/
theorem funct3_opcode_of_masked (h : w &&& 0x0000707F = put 32 12 f ||| put 32 0 op) :
    w.extractLsb' 12 3 = f ∧ w.extractLsb' 0 7 = op := by
  simp [extractLsb'_of_masked h, BitVec.extractLsb'_or]

theorem encodeI_of_masked (h : w &&& 0x0000707F = put 32 12 f ||| put 32 0 op) :
    encodeI (fieldImmI w) (fieldRs1 w) f (fieldRd w) op = w := by
  obtain ⟨rfl, rfl⟩ := funct3_opcode_of_masked h
  exact encodeI_fields w

theorem encodeS_of_masked (h : w &&& 0x0000707F = put 32 12 f ||| put 32 0 op) :
    encodeS (fieldImmS w) (fieldRs2 w) (fieldRs1 w) f op = w := by
  obtain ⟨rfl, rfl⟩ := funct3_opcode_of_masked h
  exact encodeS_fields w

theorem encodeB_of_masked (h : w &&& 0x0000707F = put 32 12 f ||| put 32 0 op) :
    encodeB (fieldImmB w) (fieldRs2 w) (fieldRs1 w) f op = w := by
  obtain ⟨rfl, rfl⟩ := funct3_opcode_of_masked h
  exact encodeB_fields w

theorem encodeJ_of_masked (h : w &&& 0x0000007F = put 32 0 op) : encodeJ (fieldImmJ w) (fieldRd w) op = w := by
  have hop : w.extractLsb' 0 7 = op := by rw [extractLsb'_of_masked h (by decide), extractLsb'_put_same op (by decide)]
  rw [← hop, encodeJ_fields]

/-- A word that a row fixes in full is the row's opcode. -/
theorem eq_of_masked_full (h : w &&& 0xFFFFFFFF = o) : o = w := h.symm.trans BitVec.and_allOnes

end

theorem encode_handler_of_fits {w : IWord} : ∀ e ∈ opTable, w &&& e.mask = e.opcode →
    wellFormed (e.handler w) = true ∧ encode (e.handler w) = w := by
  simp only [opTable, List.forall_mem_cons]
  refine ⟨?addi, ?add, ?sub, ?lw, ?sw, ?bne, ?jal, ?ecall, ?eret, ?mtcr, ?mfcr, ?stop, ?setvl, ?vcfg, ?halt, nofun⟩ <;>
    intro h
  case addi | lw | mtcr | mfcr | setvl => exact ⟨rfl, encodeI_of_masked (h.trans (by decide))⟩
  case add | sub | vcfg => exact ⟨rfl, encodeR_of_masked (h.trans (by decide))⟩
  case sw => exact ⟨rfl, encodeS_of_masked (h.trans (by decide))⟩
  case bne => exact ⟨evenOffset_fieldImmB w, encodeB_of_masked (h.trans (by decide))⟩
  case jal => exact ⟨evenOffset_fieldImmJ w, encodeJ_of_masked (h.trans (by decide))⟩
  case ecall | eret | stop | halt => exact ⟨rfl, eq_of_masked_full h⟩

/-- Settles O3: the row that fits keeps every bit of the word, in its fixed bits or in a field. -/
theorem encodeOfDecodeIsIdentity : Obligations.EncodeOfDecodeIsIdentity := by
  intro w i h
  obtain ⟨e, he, hw, rfl⟩ := decodeWord_eq_some_iff.mp h
  exact encode_handler_of_fits e he hw

/-- Settles O1, by running the decoder on each word. -/
theorem specWordsDecode : Obligations.SpecWordsDecode := by
  unfold Obligations.SpecWordsDecode
  decide

end Sys2Proof
end

section
/-! PROOFS, dispatch (40_dispatch.md). Decoding finds the first entry that fits (R80). An entry that fits a word is a
candidate of the word's slot, and candidates stand in table order (R81 to R84); so the slot table selects what decoding
selects, as R85 argues. -/

namespace Sys2Proof

/-! ## The first entry that fits (40_dispatch.md R80) -/

theorem Entry.fits_eq_false_iff {α : Type} {e : Entry α} {w : IWord} : e.fits w = false ↔ w &&& e.mask ≠ e.opcode :=
  beq_eq_false_iff_ne

theorem decodeIn_eq_some_iff {α : Type} {ot : List (Entry α)} {w : IWord} {h : α} :
    decodeIn ot w = some h ↔
      ∃ (before : List (Entry α)) (e : Entry α) (after : List (Entry α)), ot = before ++ e :: after ∧
        w &&& e.mask = e.opcode ∧ (∀ d ∈ before, w &&& d.mask ≠ d.opcode) ∧ e.handler = h := by
  simp only [decodeIn, Option.map_eq_some_iff, List.find?_eq_some_iff_append, Bool.not_eq_true',
    Entry.fits_iff, Entry.fits_eq_false_iff]
  constructor
  · rintro ⟨e, ⟨he, before, after, hot, hbefore⟩, hh⟩
    exact ⟨before, e, after, hot, he, hbefore, hh⟩
  · rintro ⟨before, e, after, hot, he, hbefore, hh⟩
    exact ⟨e, ⟨he, before, after, hot, hbefore⟩, hh⟩

theorem decodeIn_eq_none_iff {α : Type} {ot : List (Entry α)} {w : IWord} :
    decodeIn ot w = none ↔ ∀ e ∈ ot, w &&& e.mask ≠ e.opcode := by
  simp only [decodeIn, Option.map_eq_none_iff, List.find?_eq_none, Entry.fits_iff]

/-- Settles O5: a list's `find?` splits the list at the first entry that fits. -/
theorem firstMatchingEntrySelected : Obligations.FirstMatchingEntrySelected := fun _ _ _ =>
  ⟨fun _ => decodeIn_eq_some_iff, decodeIn_eq_none_iff⟩

/-- Dropping entries that do not fit the word changes nothing, since those kept stay in table order. -/
theorem decodeIn_filter {α : Type} {ot : List (Entry α)} {w : IWord} {keep : Entry α → Bool}
    (hkeep : ∀ e : Entry α, e.fits w = true → keep e = true) : decodeIn (ot.filter keep) w = decodeIn ot w := by
  have hboth : (fun e : Entry α => keep e && e.fits w) = fun e => e.fits w := by
    funext e
    exact Bool.and_eq_right_iff_imp.mpr (hkeep e)
  simp only [decodeIn, List.find?_filter, Bool.decide_and, Bool.decide_eq_true, hboth]

/-! ## A word's slot and its candidates (40_dispatch.md R81, R82) -/

/-- The table has a slot for every word, whatever its size. -/
theorem slotOf_lt (k : Nat) (w : IWord) : slotOf k w < 2 ^ k :=
  calc slotOf k w ≤ (slotMask k).toNat := by
        rw [slotOf, BitVec.toNat_and]
        exact Nat.and_le_right
    _ ≤ 2 ^ k - 1 := by
        rw [slotMask, BitVec.toNat_ofNat]
        exact Nat.mod_le _ _
    _ < 2 ^ k := Nat.sub_one_lt (Nat.two_pow_pos k).ne'

theorem ofNat_slotOf (k : Nat) (w : IWord) : BitVec.ofNat 32 (slotOf k w) = w &&& slotMask k := by
  rw [slotOf, BitVec.ofNat_toNat, BitVec.setWidth_eq]

/-- R85's reason: masked down to the slot's bits, a word that fits an entry still agrees with the entry's opcode. -/
theorem and_slotMask_and_mask_of_fits {α : Type} {e : Entry α} {w : IWord} (h : w &&& e.mask = e.opcode) (k : Nat) :
    w &&& slotMask k &&& e.mask = e.opcode &&& e.mask &&& slotMask k := by
  have hopcode : e.opcode &&& e.mask = e.opcode := by rw [← h, BitVec.and_assoc, BitVec.and_self]
  calc w &&& slotMask k &&& e.mask
      = w &&& e.mask &&& slotMask k := by rw [BitVec.and_assoc, BitVec.and_comm (slotMask k), BitVec.and_assoc]
    _ = e.opcode &&& e.mask &&& slotMask k := by rw [h, hopcode]

/-- Decoding may look at the candidates of the word's slot only. -/
theorem decodeIn_candidates {α : Type} (k : Nat) (ot : List (Entry α)) (w : IWord) :
    decodeIn (candidates k ot (slotOf k w)) w = decodeIn ot w := by
  refine decodeIn_filter fun e he => ?_
  rw [ofNat_slotOf, beq_iff_eq]
  exact and_slotMask_and_mask_of_fits (Entry.fits_iff.mp he) k

/-! ## The slot table (40_dispatch.md R83, R84) -/

/-- A bound slot answers as decoding its candidates does; a direct slot does so because it keeps the full test. -/
theorem bindSlot_select {α : Type} (c : List (Entry α)) (w : IWord) : (bindSlot c).select w = decodeIn c w := by
  match c with
  | [] => rfl
  | [e] => cases h : e.fits w <;> simp [bindSlot, Binding.select, decodeIn, h]
  | _ :: _ :: _ => rfl

theorem slotTable_getElem? {α : Type} {k i : Nat} (h : i < 2 ^ k) (ot : List (Entry α)) :
    (slotTable k ot)[i]? = some (bindSlot (candidates k ot i)) := by
  rw [slotTable, List.getElem?_map, List.getElem?_range h, Option.map_some]

/-- Settles O4: every entry that fits the word is among the candidates of its slot, in table order. -/
theorem slotDispatchEqualsDecode : Obligations.SlotDispatchEqualsDecode := by
  intro α k ot w
  calc dispatchVia (slotTable k ot) k w
      = (bindSlot (candidates k ot (slotOf k w))).select w := by
        simp only [dispatchVia, slotTable_getElem? (slotOf_lt k w)]
    _ = decodeIn (candidates k ot (slotOf k w)) w := bindSlot_select _ w
    _ = decodeIn ot w := decodeIn_candidates k ot w

end Sys2Proof
end

section
/-! PROOFS, register_status (41_register_status.md). The control-register port is a table of numbers over reads and writes
of named registers (R104). A status, cause or fsr write masks its value (R107, R110, R118); the mask decides field by field
what a decode of the stored word finds. -/

namespace Sys2Proof.Machine

/-! ## The numbers of the control registers (R104) -/

/-- The number of a control register, the inverse of `CReg.ofNumber`. -/
def CReg.number (r : CReg) : Nat :=
  match r with
  | .status => 0
  | .epc => 1
  | .badvaddr => 2
  | .evec => 3
  | .count => 4
  | .compare => 5
  | .cause => 6
  | .coreid => 10
  | .k0 => 12
  | .k1 => 13
  | .vecbank => 18
  | .tohost => 30
  | .fromhost => 31

@[simp] theorem ofNumber_number (r : CReg) : CReg.ofNumber r.number = some r := by cases r <;> rfl

theorem number_of_ofNumber {n : Nat} {r : CReg} (h : CReg.ofNumber n = some r) : r.number = n := by
  unfold CReg.ofNumber at h
  split at h <;> cases h <;> rfl

theorem number_mem (r : CReg) : r.number ∈ [0, 1, 2, 3, 4, 5, 6, 10, 12, 13, 18, 30, 31] := by cases r <;> decide

theorem ofNumber_eq_none {n : Nat} (h : n ∉ [0, 1, 2, 3, 4, 5, 6, 10, 12, 13, 18, 30, 31]) : CReg.ofNumber n = none :=
  Option.eq_none_iff_forall_ne_some.mpr fun r hr => h (number_of_ofNumber hr ▸ number_mem r)

@[simp] theorem crRead_number (r : CReg) (s : State) : crRead r.number s = some (s.core.readCReg r) := by
  simp [crRead]

@[simp] theorem crWrite_number (r : CReg) (v : Word) (s : State) : crWrite r.number v s = some (writeCReg r v s) := by
  simp [crWrite]

/-- Two states that agree on every register but `r` read alike at every number but that of `r`. -/
theorem crRead_eq_of_readCReg_eq {r : CReg} {s u : State}
    (h : ∀ q, q ≠ r → u.core.readCReg q = s.core.readCReg q) {m : Nat} (hm : m ≠ r.number) :
    crRead m u = crRead m s := by
  cases hq : CReg.ofNumber m with
  | none => simp only [crRead, hq, Option.map_none]
  | some q =>
    obtain rfl := number_of_ofNumber hq
    have hne : q ≠ r := fun heq => hm (congrArg CReg.number heq)
    simp only [crRead_number, h q hne]

/-- Settles O32: each of the thirteen reads is the register's own, and a number outside the table names none. -/
theorem controlRegisterNumbers : Obligations.ControlRegisterNumbers := by
  intro s
  refine ⟨rfl, rfl, rfl, rfl, rfl, rfl, rfl, rfl, rfl, rfl, rfl, rfl, rfl, fun n v hn => ?_⟩
  simp only [crRead, crWrite, ofNumber_eq_none hn, Option.map_none, and_self]

/-! ## Plain registers (R106) -/

/-- The registers that a write stores 64 bits in and does nothing else. -/
def CReg.plain : List CReg := [.epc, .badvaddr, .evec, .k0, .k1, .tohost, .fromhost]

theorem readCReg_writeCReg_of_plain {r : CReg} (hr : r ∈ CReg.plain) (v : Word) (s : State) (q : CReg) :
    (writeCReg r v s).core.readCReg q = if q = r then v else s.core.readCReg q := by
  cases r with
  | epc | badvaddr | evec | k0 | k1 | tohost | fromhost => cases q <;> rfl
  | status | count | compare | cause | coreid | vecbank => simp [CReg.plain] at hr

theorem writeCReg_frame_of_plain {r : CReg} (hr : r ∈ CReg.plain) {v : Word} {s u : State} (hu : writeCReg r v s = u) :
    u = { s with core := { s.core with
      epc := u.core.epc, badvaddr := u.core.badvaddr, evec := u.core.evec, k0 := u.core.k0, k1 := u.core.k1,
      tohost := u.core.tohost, fromhost := u.core.fromhost } } := by
  subst hu
  cases r with
  | epc | badvaddr | evec | k0 | k1 | tohost | fromhost => rfl
  | status | count | compare | cause | coreid | vecbank => simp [CReg.plain] at hr

/-- Settles O33, register by register: a plain number names a plain register. -/
theorem plainControlRegisterWrites : Obligations.PlainControlRegisterWrites := by
  refine ⟨fun n hn v s => ?_, fun v s => rfl⟩
  obtain ⟨r, hr, rfl⟩ : ∃ r ∈ CReg.plain, r.number = n := by
    revert n
    decide
  refine ⟨writeCReg r v s, crWrite_number r v s, ?_, fun m hm => ?_, writeCReg_frame_of_plain hr rfl⟩
  · rw [crRead_number, readCReg_writeCReg_of_plain hr, if_pos rfl]
  · exact crRead_eq_of_readCReg_eq (fun q hq => by rw [readCReg_writeCReg_of_plain hr, if_neg hq]) hm

/-! ## Fields under a mask -/

/-- A mask that covers the place where a value is put keeps it. -/
theorem put_and_of_mask {m pos n : Nat} {mask : BitVec m} (hmask : mask.extractLsb' pos n = BitVec.allOnes n)
    (v : BitVec n) : put m pos v &&& mask = put m pos v := by
  apply BitVec.eq_of_getLsbD_eq
  intro i hi
  simp only [BitVec.getLsbD_and, getLsbD_put, Bool.and_eq_left_iff_imp, Bool.and_eq_true, decide_eq_true_eq]
  rintro ⟨⟨_, hpos⟩, hv⟩
  have hbit := congrArg (fun w => w.getLsbD (i - pos)) hmask
  have hlt : i - pos < n := BitVec.lt_of_getLsbD hv
  simpa [hlt, Nat.add_sub_cancel' hpos] using hbit

/-! ## Cause, compare and count (R107 to R109, R113) -/

@[simp] theorem causeCode_maskCause (c : IWord) : causeCode (maskCause c) = causeCode c :=
  (extractLsb'_of_masked rfl (by decide)).symm

@[simp] theorem causeIP_maskCause (c : IWord) : causeIP (maskCause c) = causeIP c :=
  (extractLsb'_of_masked rfl (by decide)).symm

theorem getLsbD_causeWritable_reserved :
    ∀ k < 32, (5 ≤ k ∧ k < 16) ∨ 24 ≤ k → causeWritable.getLsbD k = false := by decide

theorem getLsbD_maskCause_reserved (c : IWord) {k : Nat} (hk : (5 ≤ k ∧ k < 16) ∨ 24 ≤ k) :
    (maskCause c).getLsbD k = false := by
  by_cases h : k < 32
  · rw [maskCause, BitVec.getLsbD_and, getLsbD_causeWritable_reserved k h hk, Bool.and_false]
  · exact BitVec.getLsbD_of_ge _ _ (Nat.le_of_not_lt h)

theorem getLsbD_clearLine_self (line : Nat) (c : IWord) : (clearLine line c).getLsbD (16 + line) = false := by
  by_cases h : 16 + line < 32
  · simp [clearLine, ← BitVec.twoPow_eq, BitVec.getLsbD_twoPow, -BitVec.getLsbD_eq_getElem, h]
  · exact BitVec.getLsbD_of_ge _ _ (Nat.le_of_not_lt h)

theorem getLsbD_clearLine_of_ne {line k : Nat} (hk : k ≠ 16 + line) (c : IWord) :
    (clearLine line c).getLsbD k = c.getLsbD k := by
  simp only [clearLine, ← BitVec.twoPow_eq, BitVec.getLsbD_and, BitVec.getLsbD_not, BitVec.getLsbD_twoPow]
  have hlt : c.getLsbD k = true → k < 32 := BitVec.lt_of_getLsbD
  simpa [hk.symm] using hlt

theorem causeCode_low32 (v : Word) : causeCode (low32 v) = v.extractLsb' 0 5 :=
  BitVec.extractLsb'_setWidth_of_le (by decide)

theorem causeIP_low32 (v : Word) : causeIP (low32 v) = v.extractLsb' 16 8 :=
  BitVec.extractLsb'_setWidth_of_le (by decide)

/-- Settles O34: the cause mask keeps the two fields and no reserved bit, and a compare write clears the timer's line. -/
theorem causeCompareCountWrites : Obligations.CauseCompareCountWrites := by
  intro v s
  refine ⟨⟨_, crWrite_number .cause v s, ?code, ?ip, fun k hk => getLsbD_maskCause_reserved _ hk, rfl⟩,
    ⟨_, crWrite_number .compare v s, rfl, ?timer, fun k hk => ?others, rfl⟩,
    ⟨_, crWrite_number .count v s, rfl, rfl⟩⟩
  case code => exact (causeCode_maskCause _).trans (causeCode_low32 v)
  case ip => exact (causeIP_maskCause _).trans (causeIP_low32 v)
  case timer => exact getLsbD_clearLine_self Config.irqTimer _
  case others => exact getLsbD_clearLine_of_ne (line := Config.irqTimer) hk _

theorem causeCode_encodeCause (code : BitVec 5) (ip : BitVec 8) : causeCode (encodeCause code ip) = code := by
  simp [causeCode, encodeCause, BitVec.extractLsb'_or]

theorem causeIP_encodeCause (code : BitVec 5) (ip : BitVec 8) : causeIP (encodeCause code ip) = ip := by
  simp [causeIP, encodeCause, BitVec.extractLsb'_or]

theorem maskCause_encodeCause (code : BitVec 5) (ip : BitVec 8) :
    maskCause (encodeCause code ip) = encodeCause code ip :=
  maskCause_or _ _ (put_and_of_mask (by decide) code) (put_and_of_mask (by decide) ip)

/-! ## The floating-point status register (R113, R116, R118) -/

theorem fsrAexc_encodeFsr (aexc : BitVec 5) (rm : BitVec 3) : fsrAexc (encodeFsr aexc rm) = aexc := by
  simp [fsrAexc, encodeFsr, BitVec.extractLsb'_or]

theorem fsrRM_encodeFsr (aexc : BitVec 5) (rm : BitVec 3) : fsrRM (encodeFsr aexc rm) = rm := by
  simp [fsrRM, encodeFsr, BitVec.extractLsb'_or]

theorem maskFsr_encodeFsr (aexc : BitVec 5) (rm : BitVec 3) : maskFsr (encodeFsr aexc rm) = encodeFsr aexc rm := by
  have haexc : put 32 0 aexc &&& fsrWritable = put 32 0 aexc := put_and_of_mask (by decide) aexc
  have hrm : put 32 5 rm &&& fsrWritable = put 32 5 rm := put_and_of_mask (by decide) rm
  rw [maskFsr, encodeFsr, BitVec.and_or_distrib_right, haexc, hrm]

/-- A single flag is its bit of the five together. -/
theorem getLsbD_encodeFsr {k : Nat} (hk : k < 5) (aexc : BitVec 5) (rm : BitVec 3) :
    (encodeFsr aexc rm).getLsbD k = aexc.getLsbD k := by
  have hbit := congrArg (fun w => w.getLsbD k) (fsrAexc_encodeFsr aexc rm)
  simpa [fsrAexc, hk] using hbit

/-- Settles O39: the two fields of each word stand apart and inside the mask. -/
theorem causeAndFsrFieldsRoundTrip : Obligations.CauseAndFsrFieldsRoundTrip := by
  refine ⟨fun v => ⟨rfl, rfl, rfl, rfl, rfl, rfl, rfl, rfl, rfl⟩, fun code ip => ?cause, fun aexc rm => ?fsr⟩
  case cause => exact ⟨causeCode_encodeCause code ip, causeIP_encodeCause code ip, maskCause_encodeCause code ip⟩
  case fsr =>
    have hflag {k : Nat} (hk : k < 5) := getLsbD_encodeFsr hk aexc rm
    exact ⟨fsrAexc_encodeFsr aexc rm, fsrRM_encodeFsr aexc rm, maskFsr_encodeFsr aexc rm, hflag (by decide),
      hflag (by decide), hflag (by decide), hflag (by decide), hflag (by decide)⟩

theorem toNat_maskFsr (v : IWord) : (maskFsr v).toNat = v.toNat % 256 :=
  (BitVec.toNat_and v fsrWritable).trans (Nat.and_two_pow_sub_one_eq_mod v.toNat 8)

/-- Settles O40: the mask of fsr is the low byte. -/
theorem fsrWriteKeepsLowByte : Obligations.FsrWriteKeepsLowByte := by
  refine fun v s => ⟨?_, rfl, rfl⟩
  have hlow : (low32 v).toNat % 256 = v.toNat % 256 := by
    rw [low32, BitVec.toNat_setWidth]
    omega
  have hread : (fsrRead (fsrWrite v s)).toNat = (maskFsr (low32 v)).toNat :=
    BitVec.toNat_setWidth_of_le (by decide)
  rw [hread, toNat_maskFsr, hlow]

/-! ## The floating-point ports (R102, R103) -/

@[simp] theorem fRead_fWrite (p : Proc) (i j : Reg) (v : Word) :
    (p.fWrite i v).fRead j = if j = i then v else p.fRead j := by
  simp only [Proc.fRead, Proc.fWrite, Vector.getElem_set, Fin.val_inj, eq_comm]

/-- Settles O41: a write sets one element of the register file. -/
theorem floatRegisterPorts : Obligations.FloatRegisterPorts := fun p i j v => ⟨fRead_fWrite p i j v, rfl⟩

/-! ## What a status write leaves of each field (R110, R112) -/

section
variable (b : Build) (v : IWord)

@[simp] theorem statusET_maskStatus : statusET (maskStatus b v) = statusET v :=
  (getLsbD_maskStatus b v 0).trans (by simp [statusET])

@[simp] theorem statusEF_maskStatus : statusEF (maskStatus b v) = (statusEF v && b.haveFpu) :=
  (getLsbD_maskStatus b v 1).trans (by simp [statusEF])

@[simp] theorem statusEV_maskStatus : statusEV (maskStatus b v) = (statusEV v && b.haveVec) :=
  (getLsbD_maskStatus b v 2).trans (by simp [statusEV])

@[simp] theorem statusEC_maskStatus : statusEC (maskStatus b v) = (statusEC v && b.haveRvc) :=
  (getLsbD_maskStatus b v 3).trans (by simp [statusEC])

@[simp] theorem statusPS_maskStatus : statusPS (maskStatus b v) = statusPS v :=
  (getLsbD_maskStatus b v 4).trans (by simp [statusPS])

@[simp] theorem statusS_maskStatus : statusS (maskStatus b v) = statusS v :=
  (getLsbD_maskStatus b v 5).trans (by simp [statusS])

@[simp] theorem statusU64_maskStatus : statusU64 (maskStatus b v) = (statusU64 v && b.have64) :=
  (getLsbD_maskStatus b v 6).trans (by simp [statusU64])

@[simp] theorem statusS64_maskStatus : statusS64 (maskStatus b v) = (statusS64 v && b.have64) :=
  (getLsbD_maskStatus b v 7).trans (by simp [statusS64])

@[simp] theorem statusVM_maskStatus : statusVM (maskStatus b v) = statusVM v :=
  (getLsbD_maskStatus b v 8).trans (by simp [statusVM])

@[simp] theorem statusIM_maskStatus : statusIM (maskStatus b v) = statusIM v := by
  apply BitVec.eq_of_getLsbD_eq
  intro i hi
  have hplace : 16 + i ≤ 23 := by omega
  have hfeature {n : Nat} (hn : n < 16) : (16 + i == n) = false := beq_false_of_ne (by omega)
  simp [statusIM, getLsbD_maskStatus, hplace, hfeature, -BitVec.getLsbD_eq_getElem]

/-- A status write clears the feature fields of absent capabilities and keeps every other field. -/
theorem decodeStatus_maskStatus : decodeStatus (maskStatus b v) =
    { decodeStatus v with
      ef := (decodeStatus v).ef && b.haveFpu, ev := (decodeStatus v).ev && b.haveVec,
      ec := (decodeStatus v).ec && b.haveRvc, u64 := (decodeStatus v).u64 && b.have64,
      s64 := (decodeStatus v).s64 && b.have64 } := by
  simp [decodeStatus]

/-- The native width is 64 only where the build has it (10_state.md R17). -/
theorem xprlen_maskStatus : xprlen (maskStatus b v) =
    if b.have64 && (if statusS v then statusS64 v else statusU64 v) then 64 else 32 := by
  cases hs : statusS v <;> simp [xprlen, hs, Bool.and_comm]

end

/-! ## The status register (R110 to R112, R114) -/

/-- A flag put at its place is that bit and no other. -/
theorem getLsbD_flagAt (flag : Bool) (pos k : Nat) :
    (flagAt flag pos).getLsbD k = (decide (k < 32) && (decide (k = pos) && flag)) := by
  have hplace : pos ≤ k ∧ k - pos = 0 ↔ k = pos := by omega
  simp only [flagAt, getLsbD_put, BitVec.getLsbD_ofBool, ← hplace, Bool.decide_and, Bool.and_assoc]

theorem statusIM_encodeStatus (v : StatusFields) : statusIM (encodeStatus v) = v.im := by
  simp [statusIM, encodeStatus, flagAt, BitVec.extractLsb'_or]

/-- The fields of a status word stand at places of their own. -/
theorem decodeStatus_encodeStatus (v : StatusFields) : decodeStatus (encodeStatus v) = v := by
  rw [decodeStatus, statusIM_encodeStatus]
  simp [statusET, statusEF, statusEV, statusEC, statusPS, statusS, statusU64, statusS64, statusVM, encodeStatus,
    getLsbD_flagAt, getLsbD_put, -BitVec.getLsbD_eq_getElem]

/-- Settles O38: decoding undoes encoding, and the mask between them acts field by field. -/
theorem statusFieldsRoundTrip : Obligations.StatusFieldsRoundTrip := by
  refine ⟨fun st => rfl, fun b v => ?_⟩
  rw [decodeStatus_maskStatus, decodeStatus_encodeStatus]

/-- Settles O36: the stored word is the masked value, bit by bit; VM and S pass the mask. -/
theorem statusWriteMasksAndNotifies : Obligations.StatusWriteMasksAndNotifies := by
  refine ⟨?_, fun v s => rfl⟩
  rintro v s _ rfl
  refine ⟨getLsbD_maskStatus s.build v, ?port, rfl, xprlen_maskStatus s.build v⟩
  case port =>
    rw [statusWrite_port, statusVM_maskStatus, statusS_maskStatus]
    rfl

/-- Settles O37: the masked value is the status that stands. -/
theorem statusRewriteStillNotifies : Obligations.StatusRewriteStillNotifies := by
  intro s h
  have hcore : (statusWrite s.core.status s).core = s.core := by rw [statusWrite_core, h]
  exact ⟨hcore, by rw [hcore], rfl, rfl⟩

end Sys2Proof.Machine
end

section
/-! PROOFS, vector_lanes (42_vector_lanes.md). `RecomputeVlmax` as a formula of unbounded integers, and so what a write
of `vecbank` leaves (R140, R143). Which lanes the multiplexer finds (R151): after attachment each as its creation leaves
it (R150), and after a lane was run each of the others as it was. Of what the owner shares with a lane, a batch of slots
on it writes only memory, the collaborator's records and the trace (R152, R154). -/

namespace Sys2Proof.Machine

/-! ## The vector configuration (R140, R143) -/

theorem minWord_toNat (a b : Word) : (minWord a b).toNat = min a.toNat b.toNat := by
  rw [minWord, apply_ite BitVec.toNat, min_def]

/-- The clamped formula fits a register, so the stored word is the unbounded integer. -/
theorem recomputeVlmax_vlmax_toNat (p : Proc) :
    p.recomputeVlmax.vlmax.toNat = min ((if p.nxprUse.toNat + p.nfprUse.toNat < 2 then 256
      else 256 / (p.nxprUse.toNat + p.nfprUse.toNat - 1)) * p.laneCount) 2048 := by
  have hfits (m : Nat) : min m Config.laneCap < 2 ^ 64 := (min_le_right _ _).trans_lt (by decide)
  simp only [Proc.recomputeVlmax, BitVec.toNat_ofNat, Nat.mod_eq_of_lt (hfits _), ite_mul]
  rfl

theorem recomputeVlmax_vl_toNat (p : Proc) :
    p.recomputeVlmax.vl.toNat = min p.vl.toNat p.recomputeVlmax.vlmax.toNat := minWord_toNat _ _

/-- Settles O42: the two values, and every other field is kept by definition. -/
theorem vlmaxFormula : Obligations.VlmaxFormula := fun p =>
  ⟨recomputeVlmax_vlmax_toNat p, recomputeVlmax_vl_toNat p, rfl⟩

theorem popcount_setWidth (v : Word) :
    popcount (v.setWidth 8) = ((List.range 8).filter (fun k => v.getLsbD k)).length := by
  rw [popcount, List.countP_eq_length_filter]
  congr 1
  refine List.filter_congr fun k hk => ?_
  rw [BitVec.getLsbD_setWidth, decide_eq_true (List.mem_range.mp hk), Bool.true_and]

/-- Settles O35: register 18 is `vecbank`, and its write recomputes `vlmax` from the mask and the count it stored. -/
theorem laneMaskWrite : Obligations.LaneMaskWrite := fun v s =>
  ⟨s.onCore (Proc.setLaneMask v), rfl, fun _ => BitVec.getLsbD_setWidth 8 v _, popcount_setWidth v,
    recomputeVlmax_vlmax_toNat _, recomputeVlmax_vl_toNat _, rfl⟩

/-! ## The lane state multiplexer (R151) -/

theorem laneAt_of_lanes {s : State} {ls : Vector Proc Config.laneCap} (h : s.lanes = some ls) (k : Nat) :
    laneAt k s = ls[k]? := by
  rw [laneAt, h]

theorem laneAt_eq_none_iff (k : Nat) (s : State) : laneAt k s = none ↔ s.lanes = none ∨ 2048 ≤ k := by
  cases hls : s.lanes with
  | none => simp [laneAt, hls]
  | some ls =>
    rw [laneAt_of_lanes hls, Vector.getElem?_eq_none_iff]
    simp only [reduceCtorEq, false_or, Config.laneCap]

/-- Settles O48: a selected lane is never refused, and a lane that cannot be selected always is. -/
theorem laneMultiplexerRefusesExactly : Obligations.LaneMultiplexerRefusesExactly := by
  intro k s
  rw [← laneAt_eq_none_iff]
  cases hk : laneAt k s <;> simp [onLane, hk]

/-- Settles O58: a lane sees no lane array. -/
theorem nestedLanesRefused : Obligations.NestedLanesRefused := fun sys k n a lane s =>
  runLane_focusLane sys k a n lane s

/-! ## Attachment (R150) -/

/-- EF and EV are the bits a lane's creation pre-enables, each where its capability is built in. -/
theorem getLsbD_laneCreated_status (b : Build) (coreId k j : Nat) :
    (laneCreated b coreId k).status.getLsbD j = ((j == 1 && b.haveFpu) || (j == 2 && b.haveVec)) := by
  refine (getLsbD_maskStatus b lanePreEnable j).trans ?_
  by_cases hj : j < 32
  · interval_cases j <;> simp [lanePreEnable]
  · have h1 : (j == 1) = false := beq_false_of_ne (by omega)
    have h2 : (j == 2) = false := beq_false_of_ne (by omega)
    simp [BitVec.getLsbD_of_ge _ _ (not_lt.mp hj), h1, h2]

/-- Settles O47: the array is built lane by lane, each as created. -/
theorem laneCreation : Obligations.LaneCreation := by
  refine fun s => ⟨fun hnone => ?_, fun hsome => ?_⟩
  · refine ⟨_, by rw [attachLanes, hnone], fun k hk => ?_, rfl, rfl, rfl⟩
    refine ⟨laneCreated s.build s.core.coreId k, ?_, rfl, getLsbD_laneCreated_status _ _ _⟩
    have hcap : k < Config.laneCap := hk
    simp [laneAt, hcap]
  · obtain ⟨ls, hls⟩ := Option.ne_none_iff_exists'.mp hsome
    rw [attachLanes, hls]

/-! ## Running a lane (R152, R154) -/

/-- What no slot writes, on the core or on a lane: the size of memory, the capabilities and the harness's queue. -/
def State.fixed (s : State) : Nat × Build × List HarnessOp := (s.memSize, s.build, s.harness)

theorem fixed_eq_iff {s t : State} :
    t.fixed = s.fixed ↔ t.memSize = s.memSize ∧ t.build = s.build ∧ t.harness = s.harness := by
  simp only [State.fixed, Prod.mk.injEq]

theorem onCore_fixed (g : Proc → Proc) (s : State) : (s.onCore g).fixed = s.fixed := rfl

theorem endSlot_fixed (s : State) : (endSlot s).fixed = s.fixed := by
  obtain ⟨_, h⟩ | ⟨b, _, _, _, h⟩ | ⟨b, _, _, h⟩ := endSlot_cases s <;> rw [h] <;> rfl

theorem slot_fixed {s t : State} (h : slotWith fixtureSystem s = .next t) : t.fixed = s.fixed := by
  obtain ⟨u, hu, rfl⟩ := afterSlot_next h
  obtain ⟨hsize, hbuild, hharness, _⟩ := slotBody_setting s u hu
  rw [endSlot_fixed, fixed_eq_iff]
  exact ⟨hsize, hbuild, hharness⟩

/-- By induction on the bound: a loop of slots is one slot and a shorter loop from the state it leaves. -/
theorem runSlots_fixed {n : Nat} {s t : State} (h : runSlots fixtureSystem n s = .next t) : t.fixed = s.fixed := by
  induction n generalizing s with
  | zero =>
    cases h
    rfl
  | succ n ih =>
    rw [runSlots] at h
    split at h
    · cases h
      rfl
    · split at h
      · next u hu => exact (ih h).trans (slot_fixed hu)
      · cases h
      · cases h

theorem openBatch_fixed (n : Nat) (trace : Bool) (s : State) : (openBatch n trace s).fixed = s.fixed := by
  unfold openBatch
  split
  · rfl
  · split <;> rfl

theorem stepCall_fixed {n : Nat} {trace : Bool} {s t : State} (h : stepCall fixtureSystem n trace s = .next t) :
    t.fixed = s.fixed := (runSlots_fixed h).trans (openBatch_fixed n trace s)

/-- When a lane's batch answers a next state, the lane is no longer runnable there. -/
theorem laneBatch_next {sys : System} {a : Word} {n : Nat} {trace : Bool} {s t : State}
    (h : laneBatch sys a n trace s = .next t) :
    ∃ u, stepCall sys n trace (s.onCore (fun p => { p with pc := a, run := true })) = .next u ∧
      t = u.onCore (fun p => { p with run := false }) := by
  rw [laneBatch] at h
  split at h
  · next u hu =>
    cases h
    exact ⟨u, hu, rfl⟩
  · cases h
  · cases h

theorem laneBatch_fixed_and_stopped {a : Word} {n : Nat} {trace : Bool} {s t : State}
    (h : laneBatch fixtureSystem a n trace s = .next t) : t.fixed = s.fixed ∧ t.core.run = false := by
  obtain ⟨u, hu, rfl⟩ := laneBatch_next h
  exact ⟨(stepCall_fixed hu).trans (onCore_fixed _ s), rfl⟩

/-- Back from lane `k`, every other lane is as the owner had it. -/
theorem laneAt_unfocusLane_of_ne {j k : Nat} (hjk : j ≠ k) (s t : State) :
    laneAt j (unfocusLane k s t) = laneAt j s := by
  cases hls : s.lanes with
  | none => simp [laneAt, unfocusLane, hls]
  | some ls => simp [laneAt, unfocusLane, hls, Vector.getElem?_setIfInBounds_ne hjk.symm]

/-- Back from lane `k`, the array holds the state the lane was left at. -/
theorem laneAt_unfocusLane_self {k : Nat} {lane : Proc} {s : State} (hk : laneAt k s = some lane) (t : State) :
    laneAt k (unfocusLane k s t) = some t.core := by
  cases hls : s.lanes with
  | none => simp [laneAt, hls] at hk
  | some ls =>
    rw [laneAt_of_lanes hls] at hk
    obtain ⟨hlt, _⟩ := Vector.getElem?_eq_some_iff.mp hk
    simp [laneAt, unfocusLane, hls, hlt]

/-- Settles O49: the multiplexer gives the owner back its own, the lane's batch keeps what is shared. -/
theorem runLaneIsolatesOwner : Obligations.RunLaneIsolatesOwner := by
  intro k a n s t h
  obtain ⟨lane, u, hlane, hbatch, rfl⟩ := onLane_next h
  obtain ⟨hfixed, hrun⟩ := laneBatch_fixed_and_stopped hbatch
  obtain ⟨hsize, hbuild, hharness⟩ := fixed_eq_iff.mp hfixed
  exact ⟨rfl, rfl, hbuild, hsize, hharness, fun j hjk => laneAt_unfocusLane_of_ne hjk s u, u.core,
    laneAt_unfocusLane_self hlane u, hrun⟩

end Sys2Proof.Machine
end

section
/-! PROOFS, step loop (43_step_loop.md). What a slot does with what it fetched: a word that decodes runs its instruction,
an illegal word and a fetch fault enter a trap in the same slot (R173 to R176). How a slot's end leaves the batch (R170,
R180, R182, R183), and with it, by induction over the slots: a batch is over when the call returns (R172). -/

namespace Sys2Proof.Machine

/-! ## The bytes at the pc as a word (30_encoding.md R69) -/

theorem decodeWord_of_decode {b0 b1 b2 b3 : Byte} {i : Instr} (h : decode [b0, b1, b2, b3] = .ok (i, [])) :
    decodeWord (wordOfBytes b0 b1 b2 b3) = some i := by
  simp only [decode] at h
  split at h
  · next hdec =>
    cases h
    exact hdec
  · cases h

/-! ## The trace line of a fetch (60_exceptions.md R283) -/

theorem emit_of_untraced {s : State} {b : Batch} (hb : s.batch = some b) (ht : b.trace = false) (line : TraceLine) :
    s.emit line = s := by
  simp [State.emit, State.tracing, hb, ht]

theorem emit_of_traced {s : State} {b : Batch} (hb : s.batch = some b) (ht : b.trace = true) (line : TraceLine) :
    s.emit line = { s with traceOut := s.traceOut ++ [line] } := by
  simp [State.emit, State.tracing, hb, ht]

/-! ## Entering a trap (60_exceptions.md R255, R256) -/

theorem causeCode_trapCause {code : Nat} (hc : code < 32) (c : IWord) : (causeCode (trapCause code c)).toNat = code := by
  interval_cases code <;> simp [causeCode, trapCause, BitVec.extractLsb'_or, BitVec.extractLsb'_and]

theorem causeIP_trapCause {code : Nat} (hc : code < 32) (c : IWord) : causeIP (trapCause code c) = causeIP c := by
  have hcode : (BitVec.ofNat 32 code).extractLsb' 16 8 = 0#8 := by interval_cases code <;> decide
  have hkept : (~~~0x1F#32).extractLsb' 16 8 = BitVec.allOnes 8 := by decide
  simp only [causeIP, trapCause, BitVec.extractLsb'_or, BitVec.extractLsb'_and, hcode, hkept, BitVec.and_allOnes]
  simp

theorem deliverTrap_disabled {code : Nat} (hc : code < Config.numTraps) {s : State}
    (het : statusET s.core.status = false) : deliverTrap code s = .fault (.errorMode s.core.coreId code) := by
  rw [deliverTrap, if_neg (not_le.mpr hc), if_pos het]

theorem deliverTrap_enabled {code : Nat} (hc : code < Config.numTraps) {s : State}
    (het : statusET s.core.status = true) :
    deliverTrap code s = .next (enterTrap code (s.emit (.trap s.core.coreId code s.core.pc))) := by
  rw [deliverTrap, if_neg (not_le.mpr hc), if_neg (by simp [het])]

/-- A trap delivered from `u`, which differs from `s` in integer registers, the collaborator's records and the trace
alone, is the trap entered from `s`. -/
theorem deliverTrap_trapEntered {code : Nat} (hc : code < Config.numTraps) {s u : State}
    (hcore : u.core = { s.core with x := u.core.x }) (hm : keepsMachine s u) (het : statusET s.core.status = true) :
    ∃ t, deliverTrap code u = .next t ∧ trapEntered code u.lastFault s t ∧ t.core.x = u.core.x ∧
      t.lastFault = u.lastFault ∧ keepsMachine s t := by
  have hc32 : code < 32 := hc.trans (by decide)
  have hstatus : u.core.status = s.core.status := by rw [hcore]
  obtain ⟨hlanes, hmem, hsize, hbuild, hbatch, hharness⟩ := hm
  refine ⟨_, deliverTrap_enabled hc (hstatus ▸ het), ?entered, ?_, ?_, ?kept⟩
  case kept => simp [keepsMachine, hlanes, hmem, hsize, hbuild, hbatch, hharness]
  case entered =>
    rw [trapEntered, enterTrap_core, emit_core, emit_build, emit_lastFault, hbuild, hcore]
    exact ⟨rfl, rfl, rfl, causeCode_trapCause hc32 _, causeIP_trapCause hc32 _, rfl, rfl⟩
  all_goals simp

/-! ## One step with a batch open (R173 to R176) -/

theorem step_of_slotBody {s u : State} {b : Batch} (hb : s.batch = some b) (hu : slotBody fixtureSystem s = .next u) :
    step s = .next (endSlot u) := by
  rw [step_of_batch_some hb, slot, slotWith, hu, afterSlot]

section
variable {s : State} {b : Batch}

/-- The state a fetched word is dispatched in: its line is emitted when the batch is traced. -/
def State.fetched (s : State) : State :=
  s.emit (.fetched s.core.coreId s.core.pc (s.mem.read4 s.core.pc.toNat))

@[simp] theorem fetched_core : s.fetched.core = s.core := emit_core s _
@[simp] theorem fetched_mem : s.fetched.mem = s.mem := emit_mem s _
@[simp] theorem fetched_lastFault : s.fetched.lastFault = s.lastFault := emit_lastFault s _
@[simp] theorem fetched_batch : s.fetched.batch = s.batch := emit_batch s _

theorem keepsMachine_fetched : keepsMachine s s.fetched := by simp [keepsMachine, State.fetched]

theorem slotBody_of_fetch (ht : takenLine s.core.status s.core.cause = none) (ha : accessOk s s.core.pc) :
    slotBody fixtureSystem s = runWord fixtureSystem.dispatch (s.mem.read4 s.core.pc.toNat) s := by
  have hf : fixtureSystem.memory.fetch = memFetch := rfl
  simp only [slotBody, ht, hf, memFetch_ok _ _ _ ha]

theorem slotBody_of_decoded (ht : takenLine s.core.status s.core.cause = none) (ha : accessOk s s.core.pc) {i : Instr}
    (hi : decodeWord (s.mem.read4 s.core.pc.toNat) = some i) : slotBody fixtureSystem s = exec i s.fetched := by
  rw [slotBody_of_fetch ht ha]
  obtain ⟨j, hj, hrun⟩ | ⟨hnone, _⟩ := runWord_fixture (s.mem.read4 s.core.pc.toNat) s
  · rw [hi, Option.some.injEq] at hj
    rw [hrun, hj, State.fetched]
  · rw [hi] at hnone
    cases hnone

theorem slotBody_of_illegal (ht : takenLine s.core.status s.core.cause = none) (ha : accessOk s s.core.pc)
    (hw : decodeWord (s.mem.read4 s.core.pc.toNat) = none) :
    slotBody fixtureSystem s = deliverTrap trapIllegal s.fetched := by
  rw [slotBody_of_fetch ht ha]
  obtain ⟨i, hi, _⟩ | ⟨_, hrun⟩ := runWord_fixture (s.mem.read4 s.core.pc.toNat) s
  · rw [hw] at hi
    cases hi
  · exact hrun

theorem slotBody_of_fetch_fault (ht : takenLine s.core.status s.core.cause = none) {code : Nat} {u : State}
    (hf : memFetch s s.core.pc (statusEC s.core.status) = .fault code u) :
    slotBody fixtureSystem s = deliverTrap code u := by
  have he : fixtureSystem.memory.fetch = memFetch := rfl
  simp only [slotBody, ht, he, hf]

/-- A slot whose body delivers a legal trap from a state with the core of `s` enters it and is counted. -/
theorem step_of_trap (hb : s.batch = some b) (het : statusET s.core.status = true) {code : Nat} {u : State}
    (hc : code < Config.numTraps) (hu : slotBody fixtureSystem s = deliverTrap code u) (hcore : u.core = s.core)
    (hm : keepsMachine s u) :
    ∃ t, step s = .next (endSlot t) ∧ trapEntered code u.lastFault s t ∧ t.core.x = s.core.x ∧
      t.lastFault = u.lastFault ∧ keepsMachine s t := by
  obtain ⟨t, hnext, hentered, hx, hrest⟩ := deliverTrap_trapEntered hc (by rw [hcore]) hm het
  exact ⟨t, step_of_slotBody hb (hu.trans hnext), hentered, hx.trans (by rw [hcore]), hrest⟩

end

/-- Settles O6: the bytes at the pc are the word the slot fetches and dispatches. -/
theorem stepRunsDecodedInstruction : Obligations.StepRunsDecodedInstruction := by
  intro s b i hb ht ha hdec
  have hi : decodeWord (s.mem.read4 s.core.pc.toNat) = some i := by
    rw [Memory_read4_eq]
    exact decodeWord_of_decode hdec
  have hstep : step s = afterSlot (exec i s.fetched) := by
    rw [step_of_batch_some hb, slot, slotWith, slotBody_of_decoded ht ha hi]
  exact ⟨fun htr => by rw [hstep, State.fetched, emit_of_untraced hb htr],
    fun htr => by rw [hstep, State.fetched, emit_of_traced hb htr]⟩

/-- Settles O7: the trap is delivered from the state with the fetch's line emitted, which has the registers of `s`. -/
theorem illegalWordTraps : Obligations.IllegalWordTraps := by
  intro s b hb ht ha hw
  have hbody := slotBody_of_illegal ht ha hw
  constructor
  · intro het
    obtain ⟨t, hstep, hentered, hx, _, hkept⟩ := step_of_trap hb het (by decide) hbody fetched_core keepsMachine_fetched
    exact ⟨t, hstep, fetched_lastFault (s := s) ▸ hentered, hx, hkept⟩
  · intro het
    have hfatal := deliverTrap_disabled (code := trapIllegal) (s := s.fetched) (by decide) (by simpa using het)
    rw [step_of_batch_some hb, slot, slotWith, hbody, hfatal, fetched_core]
    rfl

/-- Settles O9: each of the two checks that fail answers its code, with the pc as the address recorded. -/
theorem fetchFaultTraps : Obligations.FetchFaultTraps := by
  intro s b hb ht hv het
  have htrap (code : Nat) (hc : code < Config.numTraps)
      (hf : memFetch s s.core.pc (statusEC s.core.status) = .fault code { s with lastFault := s.core.pc }) :
      ∃ t, step s = .next (endSlot t) ∧ trapEntered code s.core.pc s t ∧ t.core.x = s.core.x ∧
        t.lastFault = s.core.pc ∧ keepsMachine s t :=
    step_of_trap hb het hc (slotBody_of_fetch_fault ht hf) rfl ⟨rfl, rfl, rfl, rfl, rfl, rfl⟩
  constructor
  · intro hmis
    exact htrap trapFetchMisaligned (by decide) (by rw [memFetch, checkAccess_misaligned _ _ hv hmis])
  · intro hal hout
    exact htrap trapFetchAccess (by decide) (by rw [memFetch, checkAccess_outside _ _ hv hal hout])

/-! ## A call that opens no batch (R171, R172) -/

/-- No slot brings the counter to its compare value: that takes one at least (60_exceptions.md R265). -/
theorem countUpdate_zero (p : Proc) : p.countUpdate 0 = p := by
  have hnever : ¬ 0 ≥ slotsToCompare p.count p.compare := by simp [slotsToCompare]
  simp only [Proc.countUpdate, if_neg hnever, BitVec.add_zero]

/-- Settles O10: no batch is opened, so no slot runs. -/
theorem notRunnableStepDoesNothing : Obligations.NotRunnableStepDoesNothing := by
  intro sys n trace s hb hrun
  rw [stepCall, openBatch, if_pos hrun]
  exact runSlots_of_no_batch sys n hb

/-- Settles O11: no slot runs, and the count update of no slots changes nothing. -/
theorem emptyBatchChangesNothing : Obligations.EmptyBatchChangesNothing := by
  intro sys trace s
  have hopen : openBatch 0 trace s = s := by
    rw [openBatch, if_pos rfl, State.onCore, countUpdate_zero, ite_self]
  rw [stepCall, hopen, runSlots]

/-! ## The slot's count and the end of the batch (R170, R180, R182, R183) -/

/-- A slot's body closes the batch, leaves it, or stops it; and the slot's end counts the slot accordingly. -/
theorem endSlot_of_slotBody {s u : State} {b : Batch} (hb : s.batch = some b)
    (hu : slotBody fixtureSystem s = .next u) :
    (u.batch = none ∧ endSlot u = u) ∨
    (u.batch = some b ∧ b.stopped = false ∧ b.used + 1 < b.limit ∧
      endSlot u = { u with batch := some { b with used := b.used + 1 } }) ∨
    ((u.batch = some { b with stopped := true } ∨ (u.batch = some b ∧ b.limit ≤ b.used + 1)) ∧
      endSlot u = { u.onCore (Proc.countUpdate (b.used + 1)) with batch := none }) := by
  obtain ⟨_, _, _, hset⟩ := slotBody_setting s u hu
  rw [hb, Option.map_some] at hset
  obtain hclosed | ⟨b', hb', hgo, hleft, he⟩ | ⟨b', hb', hover, he⟩ := endSlot_cases u
  · exact .inl hclosed
  · obtain h | h | h := hset <;> rw [hb'] at h <;> cases h
    · exact .inr (.inl ⟨hb', hgo, hleft, he⟩)
    · cases hgo
  · refine .inr (.inr ?_)
    obtain h | h | h := hset <;> rw [hb'] at h <;> cases h
    · refine ⟨hover.imp (fun hstop => ?_) fun hlast => ⟨hb', hlast⟩, he⟩
      rw [hb', ← hstop]
    · exact ⟨.inl hb', he⟩

/-- Settles O12: the step is the end of the slot its body leaves. -/
theorem everySlotCountsOnce : Obligations.EverySlotCountsOnce := by
  intro s u b hb hu
  rw [step_of_slotBody hb hu]
  simpa only [Host.Outcome.next.injEq] using endSlot_of_slotBody hb hu

/-- After a slot no batch is open, or the same batch is with one more slot counted and a slot left. -/
theorem slot_batch {s t : State} {b : Batch} (hb : s.batch = some b) (h : slotWith fixtureSystem s = .next t) :
    t.batch = none ∨ (t.batch = some { b with used := b.used + 1 } ∧ b.used + 1 < b.limit) := by
  obtain ⟨u, hu, rfl⟩ := afterSlot_next h
  obtain ⟨hnone, he⟩ | ⟨_, _, hleft, he⟩ | ⟨_, he⟩ := endSlot_of_slotBody hb hu <;> rw [he]
  · exact .inl hnone
  · exact .inr ⟨rfl, hleft⟩
  · exact .inl rfl

theorem runSlots_succ_next {sys : System} {fuel : Nat} {s t : State} {b : Batch} (hb : s.batch = some b)
    (h : runSlots sys (fuel + 1) s = .next t) :
    ∃ u, slotWith sys s = .next u ∧ runSlots sys fuel u = .next t := by
  simp only [runSlots, hb] at h
  split at h
  · next u hu => exact ⟨u, hu, h⟩
  · cases h
  · cases h

/-- What bounds the loop: an open batch has a slot left, and no more of them than the fuel. -/
def State.batchWithin (fuel : Nat) (s : State) : Prop := ∀ b ∈ s.batch, b.used < b.limit ∧ b.limit ≤ b.used + fuel

theorem batchWithin_of_no_batch (fuel : Nat) {s : State} (hb : s.batch = none) : s.batchWithin fuel := by
  simp [State.batchWithin, hb]

theorem slot_batchWithin {fuel : Nat} {s t : State} {b : Batch} (hb : s.batch = some b)
    (hs : s.batchWithin (fuel + 1)) (h : slotWith fixtureSystem s = .next t) : t.batchWithin fuel := by
  obtain ⟨_, hbound⟩ := hs b hb
  obtain hnone | ⟨hsome, hleft⟩ := slot_batch hb h
  · exact batchWithin_of_no_batch fuel hnone
  · intro b' hb'
    rw [hsome] at hb'
    obtain rfl := Option.mem_some.mp hb'
    exact ⟨hleft, by simp only; omega⟩

/-- By induction on the fuel: each slot uses one of the slots that are left. -/
theorem runSlots_closes_batch {fuel : Nat} {s t : State} (hs : s.batchWithin fuel)
    (h : runSlots fixtureSystem fuel s = .next t) : t.batch = none := by
  induction fuel generalizing s with
  | zero =>
    cases h
    refine Option.eq_none_iff_forall_not_mem.mpr fun b hb => ?_
    obtain ⟨hleft, hbound⟩ := hs b hb
    omega
  | succ fuel ih =>
    cases hb : s.batch with
    | none =>
      rw [runSlots_of_no_batch _ _ hb] at h
      cases h
      exact hb
    | some b =>
      obtain ⟨u, hu, hrest⟩ := runSlots_succ_next hb h
      exact ih (slot_batchWithin hb hs hu) hrest

theorem openBatch_batchWithin (n : Nat) (trace : Bool) {s : State} (hb : s.batch = none) :
    (openBatch n trace s).batchWithin n := by
  unfold openBatch
  split
  · exact batchWithin_of_no_batch n hb
  · split
    · exact batchWithin_of_no_batch n hb
    · next hn =>
      intro b hmem
      obtain rfl := Option.mem_some.mp hmem
      exact ⟨Nat.pos_of_ne_zero hn, (Nat.zero_add n).ge⟩

/-- Settles O13: the batch opens with all its slots left, and the loop has fuel for each. -/
theorem batchEndsWithinItsBound : Obligations.BatchEndsWithinItsBound := fun n trace _ _ hb h =>
  runSlots_closes_batch (openBatch_batchWithin n trace hb) h

/-! ## Stopping (R180, R211) -/

theorem cleared_keepsX (s : State) : keepsX s (cleared s) := fun r => xRead_xWrite s.core 0 r 0

theorem exec_stop (s : State) : exec .stop s = .next (stopBatch (cleared s)) := rfl

/-- The end of a slot that stopped its batch closes it with the count update. -/
theorem endSlot_stopBatch {s : State} {b : Batch} (hb : s.batch = some b) :
    endSlot (stopBatch s) = { s.onCore (Proc.countUpdate (b.used + 1)) with batch := none } := by
  simp only [endSlot, stopBatch_batch, hb, Option.map_some, Batch.over, Bool.true_or, if_true]
  rfl

/-- Settles O28: `Stop` marks the batch, and the end of the same slot closes it. -/
theorem stopEndsBatch : Obligations.StopEndsBatch := by
  have hdec : decodeWord 0x0000000B = some .stop := by decide
  refine ⟨hdec, fun s => ⟨_, exec_stop s, cleared_keepsX s, rfl, rfl, fun _ => rfl⟩, fun s b hb ht ha hw => ?_⟩
  have hbody : slotBody fixtureSystem s = .next (stopBatch (cleared s.fetched)) :=
    slotBody_of_decoded (i := .stop) ht ha (hw ▸ hdec)
  have hend := endSlot_stopBatch (s := cleared s.fetched) (fetched_batch.trans hb)
  refine ⟨_, step_of_slotBody hb hbody, ?_⟩
  rw [hend]
  have hx := cleared_keepsX s.fetched
  simp only [keepsX, fetched_core] at hx
  refine ⟨rfl, ?pc, hx, ?core, ?mem⟩
  case pc => simp [cleared]
  case core => simp [cleared, Proc.countUpdate]
  case mem => simp [keepsMemory, cleared]

end Sys2Proof.Machine
end

section
/-! PROOFS, fixture_isa (44_fixture_isa.md). Said once: what is left when an instruction goes on at some pc, and when the
trap it returns is delivered. Each instruction's statement is then its words, its conditions, and what it wrote before.
In user mode the control state is out of reach, since of the instructions that go on only privileged ones write it. -/

namespace Sys2Proof.Machine

/-! ## The words of a row (30_encoding.md R62, R71) -/

section
open Laws.EncodedWordFitsRow

/-- A word that fits an instruction's row decodes to it when the row's fields give it. -/
theorem decodeWord_of_row {w : IWord} {i : Instr} {e : Entry (IWord → Instr)} (hrow : opTable[row i]? = some e)
    (hfits : w &&& e.mask = e.opcode) (hi : e.handler w = i) : decodeWord w = some i :=
  decodeWord_eq_some_iff.mpr ⟨e, List.mem_of_getElem? hrow, hfits, hi⟩

end

/-! ## Going on at another pc (43_step_loop.md R177, R178) -/

/-- The state `u` in which a handler returned `Next(npc)`, after the slot's clear of register 0. -/
def advance (npc : Word) (u : State) : State := (cleared u).onCore (fun p => p.setPc npc)

theorem finish_next_eq (npc : Word) (u : State) : finish (.next npc) u = .next (advance npc u) := rfl

theorem finishReg_eq_advance (rd : Reg) (v : Word) (u : State) :
    finishReg rd v u = .next (advance u.core.pcNext (u.onCore (fun p => p.xWrite rd v))) := rfl

@[simp] theorem advance_mem (npc : Word) (u : State) : (advance npc u).mem = u.mem := rfl

theorem xRead_advance (npc : Word) (u : State) (r : Reg) :
    (advance npc u).core.xRead r = if r = 0 then 0 else u.core.xRead r := xRead_xWrite u.core 0 r 0

theorem advance_keepsX (npc : Word) {s u : State} (hx : u.core.x = s.core.x) : keepsX s (advance npc u) := by
  intro r
  rw [xRead_advance, Proc.xRead, hx, Proc.xRead]

theorem advance_writesX (npc : Word) (rd : Reg) (v : Word) {s u : State} (hx : u.core.x = s.core.x) :
    writesX rd v s (advance npc (u.onCore (fun p => p.xWrite rd v))) := by
  intro r
  rw [xRead_advance, onCore_core, xRead_xWrite, Proc.xRead, hx, Proc.xRead]

/-- An instruction that does no more than write a result to `rd`. -/
theorem finishReg_spec (rd : Reg) (v : Word) (s : State) :
    ∃ t, finishReg rd v s = .next t ∧ writesX rd v s t ∧ t.core.pc = s.core.pc + 4 ∧ keepsAllButXPc s t ∧
      keepsMemory s t :=
  ⟨_, finishReg_eq_advance rd v s, advance_writesX _ rd v rfl, rfl, rfl, fun _ => rfl⟩

/-! ## Returning a trap (43_step_loop.md R179, 60_exceptions.md R256) -/

/-- What the statements say of an instruction whose trap is delivered: `o` is the state of the trap entered from `s`,
with the integer registers, memory and the machine around the core kept. -/
def takesTrap (code : Nat) (bad : Word) (s : State) (o : Out) : Prop :=
  ∃ t, o = .next t ∧ trapEntered code bad s t ∧ keepsX s t ∧ t.lastFault = bad ∧ keepsMachine s t

section
variable {code : Nat} {s : State} {o : Out}

/-- A handler that did nothing but record the address of a faulting access. -/
theorem takesTrap_of_finish_fault {a : Word} (ho : o = finish (.fault code) { s with lastFault := a })
    (hc : code < Config.numTraps) (het : statusET s.core.status = true) : takesTrap code a s o := by
  obtain ⟨t, hnext, hentered, hx, hrest⟩ :=
    deliverTrap_trapEntered (u := cleared { s with lastFault := a }) hc rfl ⟨rfl, rfl, rfl, rfl, rfl, rfl⟩ het
  refine ⟨t, ho.trans hnext, hentered, fun r => ?_, hrest⟩
  rw [Proc.xRead, hx]
  exact cleared_keepsX s r

/-- A handler that did nothing. -/
theorem takesTrap_of_finish_fault_self (ho : o = finish (.fault code) s) (hc : code < Config.numTraps)
    (het : statusET s.core.status = true) : takesTrap code s.lastFault s o :=
  takesTrap_of_finish_fault ho hc het

end

/-! ## Arithmetic, branch and jump (R200 to R202, R205, R206) -/

/-- Settles O17: the result is written to `rd` and nothing else is done. -/
theorem addiAddsImmediate : Obligations.AddiAddsImmediate :=
  ⟨fun _ hw => decodeWord_of_row rfl hw rfl, fun rd _ _ s => finishReg_spec rd _ s⟩

/-- Settles O18, as O17. -/
theorem addAddsRegisters : Obligations.AddAddsRegisters :=
  ⟨fun _ hw => decodeWord_of_row rfl hw rfl, fun rd _ _ s => finishReg_spec rd _ s⟩

/-- Settles O19, as O17. -/
theorem subSubtractsRegisters : Obligations.SubSubtractsRegisters :=
  ⟨fun _ hw => decodeWord_of_row rfl hw rfl, fun rd _ _ s => finishReg_spec rd _ s⟩

/-- Settles O22: the two targets are the two branches of the condition. -/
theorem branchNotEqual : Obligations.BranchNotEqual := by
  refine ⟨fun _ hw => decodeWord_of_row rfl hw rfl, fun rs1 rs2 off s =>
    ⟨_, finish_next_eq _ s, fun hne => ?taken, fun heq => ?notTaken, advance_keepsX _ rfl, rfl, fun _ => rfl⟩⟩
  case taken => exact if_pos hne
  case notTaken => exact if_neg (not_not_intro heq)

/-- Settles O23: the link is the only result. -/
theorem jumpAndLink : Obligations.JumpAndLink :=
  ⟨fun _ hw => decodeWord_of_row rfl hw rfl, fun rd _ s =>
    ⟨_, finish_next_eq _ _, advance_writesX _ rd s.core.pcNext rfl, rfl, rfl, fun _ => rfl⟩⟩

/-! ## Loads and stores (R203, R204; 20_memory.md R54) -/

section
variable {rd rs1 rs2 : Reg} {imm : BitVec 12} {s t : State}

theorem exec_lw_of_ok {v : BitVec (8 * 4)} (h : memRead s (s.core.dataAddr rs1 imm) 4 = .ok v) :
    exec (.lw rd rs1 imm) s = finishReg rd (v.signExtend 64) s := by
  simp only [exec, execLw, h]

theorem exec_lw_of_fault {code : Nat} (h : memRead s (s.core.dataAddr rs1 imm) 4 = .fault code t) :
    exec (.lw rd rs1 imm) s = finish (.fault code) t := by
  simp only [exec, execLw, h]

theorem exec_sw_of_ok (h : memWrite s (s.core.dataAddr rs1 imm) 4 (low32 (s.core.xRead rs2)) = .ok t) :
    exec (.sw rs2 rs1 imm) s = .next (advance s.core.pcNext t) := by
  simp only [exec, execSw, h, finish_next_eq]

theorem exec_sw_of_fault {code : Nat}
    (h : memWrite s (s.core.dataAddr rs1 imm) 4 (low32 (s.core.xRead rs2)) = .fault code t) :
    exec (.sw rs2 rs1 imm) s = finish (.fault code) t := by
  simp only [exec, execSw, h]

end

/-- Settles O20: the fixture memory performs the load, or finds it misaligned, or finds it outside. What it answers to a
store at the same address is said with it, and not used. -/
theorem loadWord : Obligations.LoadWord := by
  refine ⟨fun _ hw => decodeWord_of_row rfl hw rfl, fun rd rs1 imm s a ha => ?_⟩
  obtain rfl : a = s.core.dataAddr rs1 imm := ha
  obtain ⟨_, hmisaligned, houtside, hperformed⟩ := dataAccessOfAnyWidth.1 s (s.core.dataAddr rs1 imm) 4 0 0
  refine ⟨fun hfits => ?performed, fun hv hmod het => ?misaligned, fun hv hmod hsize het => ?outside⟩
  case performed =>
    rw [exec_lw_of_ok (hperformed hfits).1, ← Memory_read4_eq_append]
    exact finishReg_spec rd _ s
  case misaligned =>
    exact takesTrap_of_finish_fault (exec_lw_of_fault (hmisaligned hv hmod).1) (by decide) het
  case outside =>
    exact takesTrap_of_finish_fault (exec_lw_of_fault (houtside hv hmod hsize).1) (by decide) het

/-- A word's bytes are the low bytes of the register it was taken from. -/
theorem extractLsb'_low32 (v : Word) {k : Nat} (hk : k < 4) :
    (low32 v).extractLsb' (8 * k) 8 = v.extractLsb' (8 * k) 8 :=
  BitVec.extractLsb'_setWidth_of_le (by omega)

/-- Settles O21: as O20, and the bytes stored are read back from canonical memory. -/
theorem storeWord : Obligations.StoreWord := by
  refine ⟨fun _ hw => decodeWord_of_row rfl hw rfl, fun rs2 rs1 imm s a ha => ?_⟩
  obtain rfl : a = s.core.dataAddr rs1 imm := ha
  obtain ⟨_, hmisaligned, houtside, hperformed⟩ :=
    dataAccessOfAnyWidth.1 s (s.core.dataAddr rs1 imm) 4 32 (low32 (s.core.xRead rs2))
  refine ⟨fun hfits hwf => ?performed, fun hv hmod het => ?misaligned, fun hv hmod hsize het => ?outside⟩
  case performed =>
    refine ⟨_, exec_sw_of_ok (hperformed hfits).2, fun k hk => ?bytes, fun c hc => ?others, advance_keepsX _ rfl, rfl,
      rfl⟩
    case bytes => rw [advance_mem, Memory_read_writeLE_byte hwf _ hk, extractLsb'_low32 _ hk]
    case others => rw [advance_mem, Memory_read_writeLE hwf, if_neg (by omega)]
  case misaligned =>
    exact takesTrap_of_finish_fault (exec_sw_of_fault (hmisaligned hv hmod).2) (by decide) het
  case outside =>
    exact takesTrap_of_finish_fault (exec_sw_of_fault (houtside hv hmod hsize).2) (by decide) het

/-! ## System calls, returns and halts (R207, R208, R214) -/

/-- Settles O24: the handler returns the trap whatever the state. -/
theorem ecallTakesSyscallTrap : Obligations.EcallTakesSyscallTrap :=
  ⟨by decide, fun s => ⟨fun het => takesTrap_of_finish_fault_self (code := trapSyscall) rfl (by decide) het,
    fun het => deliverTrap_disabled (code := trapSyscall) (s := cleared s) (by decide) het⟩⟩

/-- The three instructions of supervisor mode (R208 to R210). -/
def privileged : Instr → Bool
  | .eret | .mtcr _ _ _ | .mfcr _ _ _ => true
  | _ => false

/-- In user mode each of them returns the trap and does nothing else. -/
theorem exec_privileged_user {i : Instr} (hi : privileged i = true) {s : State} (hs : statusS s.core.status = false) :
    exec i s = finish (.fault trapPrivileged) s := by
  cases i with
  | eret | mtcr | mfcr => exact if_pos hs
  | addi | add | sub | lw | sw | bne | jal | ecall | stop | setvl | vcfg | halt => cases hi

theorem exec_privileged_takesTrap {i : Instr} (hi : privileged i = true) {s : State}
    (hs : statusS s.core.status = false) (het : statusET s.core.status = true) :
    takesTrap 3 s.lastFault s (exec i s) :=
  takesTrap_of_finish_fault_self (exec_privileged_user hi hs) (by decide) het

theorem exec_eret_supervisor {s : State} (hs : statusS s.core.status = true) :
    exec .eret s = .next (advance s.core.epc (trapReturn s)) := by
  simp only [exec, execEret, hs, Bool.true_eq_false, if_false, finish_next_eq]

theorem statusIM_returnStatus (st : IWord) : statusIM (returnStatus st) = statusIM st := by
  apply BitVec.eq_of_getLsbD_eq
  intro i hi
  rw [statusIM, statusIM, BitVec.getLsbD_extractLsb', BitVec.getLsbD_extractLsb', getLsbD_returnStatus _ _ (by omega),
    if_neg (by omega), if_neg (by omega)]

/-- A trap return sets S to PS and ET to 1 and keeps every other field (60_exceptions.md R275). -/
theorem decodeStatus_returnStatus (st : IWord) :
    decodeStatus (returnStatus st) = { decodeStatus st with s := statusPS st, et := true } := by
  have hbit (k : Nat) (hk : k < 32) := getLsbD_returnStatus st k hk
  simp [decodeStatus, statusIM_returnStatus, statusET, statusEF, statusEV, statusEC, statusPS, statusS, statusU64,
    statusS64, statusVM, hbit, -BitVec.getLsbD_eq_getElem]

/-- The status a trap return leaves, as `StatusWrite` stores it. -/
theorem decodeStatus_trapReturn {s : State} (hmask : maskStatus s.build s.core.status = s.core.status) :
    decodeStatus (trapReturn s).core.status =
      { decodeStatus s.core.status with s := statusPS s.core.status, et := true } := by
  conv_rhs => rw [← hmask]
  simp only [trapReturn, statusWrite_core, decodeStatus_maskStatus, decodeStatus_returnStatus, statusPS_maskStatus]

theorem trapReturn_port (s : State) : (trapReturn s).port =
    { vm := statusVM s.core.status, sup := statusPS s.core.status, notifies := s.port.notifies + 1,
      flushes := s.port.flushes + 1 } := by
  have hvm := congrArg StatusFields.vm (decodeStatus_returnStatus s.core.status)
  have hsup := congrArg StatusFields.s (decodeStatus_returnStatus s.core.status)
  simp only [decodeStatus] at hvm hsup
  rw [trapReturn, statusWrite_port, statusVM_maskStatus, statusS_maskStatus, hvm, hsup]

/-- Settles O25: in supervisor mode the one status write of the return, else the privileged-instruction trap. -/
theorem eretReturnsFromTrap : Obligations.EretReturnsFromTrap := by
  refine ⟨by decide, fun s => ⟨fun hs hmask => ?_, fun hs het => exec_privileged_takesTrap rfl hs het⟩⟩
  exact ⟨_, exec_eret_supervisor hs, decodeStatus_trapReturn hmask, rfl, advance_keepsX _ rfl, rfl, trapReturn_port s,
    ⟨rfl, rfl, rfl, rfl, rfl, rfl⟩, rfl⟩

/-- A reset leaves user mode without virtual memory, in a core and in a lane (70_reset_and_hazards.md R300). -/
theorem resetStatus_mode (b : Build) (o : Option Nat) :
    statusVM (resetStatus b o) = false ∧ statusS (resetStatus b o) = false := by
  cases o <;> simp only [resetStatus, statusVM_maskStatus, statusS_maskStatus] <;> decide

theorem resetAll_port (s : State) :
    (resetAll s).port = { vm := false, sup := false, notifies := s.port.notifies + 1, flushes := s.port.flushes + 1 } := by
  obtain ⟨hvm, hsup⟩ := resetStatus_mode s.build s.core.laneIndex
  simp only [resetAll, memFlushTlb_port, memNotify_port, resetTo_status, hvm, hsup]

theorem maskStatus_zero (b : Build) : maskStatus b 0 = 0 := (maskStatus_eq_and b 0).trans BitVec.zero_and

theorem exec_halt (s : State) : exec .halt s = .next (haltCore (cleared s)) := rfl

/-- Settles O29: a halt is the reset of a core with no batch open; the clear of register 0 before it shows nowhere. -/
theorem haltResetsCore : Obligations.HaltResetsCore := by
  refine ⟨by decide, fun s => ⟨_, exec_halt s, haltCore_cleared_core s, fun hcore => ?status, rfl, rfl,
    resetAll_port { cleared s with batch := none }, rfl, fun _ => rfl⟩⟩
  case status =>
    have hindex : (cleared s).core.laneIndex = none := hcore
    rw [haltCore_core, resetTo_status, hindex, resetStatus, maskStatus_zero]

/-! ## Control registers (R209, R210; 41_register_status.md R104) -/

theorem exists_number_eq {n : Nat} (h : n ∈ [0, 1, 2, 3, 4, 5, 6, 10, 12, 13, 18, 30, 31]) :
    ∃ r : CReg, r.number = n := by
  have hsome : ∀ n ∈ [0, 1, 2, 3, 4, 5, 6, 10, 12, 13, 18, 30, 31], (CReg.ofNumber n).isSome = true := by decide
  obtain ⟨r, hr⟩ := Option.isSome_iff_exists.mp (hsome n h)
  exact ⟨r, number_of_ofNumber hr⟩

section
variable {cr : BitVec 12} {rd rs1 : Reg} {s u : State}

theorem exec_mtcr_of_write (hs : statusS s.core.status = true) (h : crWrite cr.toNat (s.core.xRead rs1) s = some u) :
    exec (.mtcr cr rs1 rd) s = .next (advance s.core.pcNext u) := by
  simp only [exec, execMtcr, hs, Bool.true_eq_false, if_false, h, finish_next_eq]

theorem exec_mtcr_of_unknown (hs : statusS s.core.status = true) (h : CReg.ofNumber cr.toNat = none) :
    exec (.mtcr cr rs1 rd) s = finish (.fault trapIllegal) s := by
  simp only [exec, execMtcr, hs, Bool.true_eq_false, if_false, crWrite, h, Option.map_none]

theorem exec_mfcr_of_read (hs : statusS s.core.status = true) {v : Word} (h : crRead cr.toNat s = some v) :
    exec (.mfcr rd cr rs1) s = finishReg rd v s := by
  simp only [exec, execMfcr, hs, Bool.true_eq_false, if_false, h]

theorem exec_mfcr_of_unknown (hs : statusS s.core.status = true) (h : CReg.ofNumber cr.toNat = none) :
    exec (.mfcr rd cr rs1) s = finish (.fault trapIllegal) s := by
  simp only [exec, execMfcr, hs, Bool.true_eq_false, if_false, crRead, h, Option.map_none]

end

/-- Settles O26: the port's write touches neither an integer register nor memory. -/
theorem moveToControlRegister : Obligations.MoveToControlRegister := by
  refine ⟨fun _ hw => decodeWord_of_row rfl hw rfl, fun cr rs1 rd s =>
    ⟨fun hs hmem => ?known, fun hs hmem het => ?unknown, fun hs het => exec_privileged_takesTrap rfl hs het⟩⟩
  case known =>
    obtain ⟨r, hr⟩ := exists_number_eq hmem
    have hwrite : crWrite cr.toNat (s.core.xRead rs1) s = some (writeCReg r (s.core.xRead rs1) s) := by
      rw [← hr, crWrite_number]
    exact ⟨_, _, hwrite, exec_mtcr_of_write hs hwrite, advance_keepsX _ (writeCReg_x ..), rfl, rfl,
      fun a => by rw [advance_mem, writeCReg_mem]⟩
  case unknown =>
    exact takesTrap_of_finish_fault_self (exec_mtcr_of_unknown hs (ofNumber_eq_none hmem)) (by decide) het

/-- Settles O27: the value the port reads is the result. -/
theorem moveFromControlRegister : Obligations.MoveFromControlRegister := by
  refine ⟨fun _ hw => decodeWord_of_row rfl hw rfl, fun rd cr rs1 s =>
    ⟨fun hs hmem => ?known, fun hs hmem het => ?unknown, fun hs het => exec_privileged_takesTrap rfl hs het⟩⟩
  case known =>
    obtain ⟨r, hr⟩ := exists_number_eq hmem
    have hread : crRead cr.toNat s = some (s.core.readCReg r) := by rw [← hr, crRead_number]
    obtain ⟨t, hnext, hspec⟩ := finishReg_spec rd (s.core.readCReg r) s
    exact ⟨_, t, hread, (exec_mfcr_of_read hs hread).trans hnext, hspec⟩
  case unknown =>
    exact takesTrap_of_finish_fault_self (exec_mfcr_of_unknown hs (ofNumber_eq_none hmem)) (by decide) het

/-! ## The vector configuration (R212, R213; 42_vector_lanes.md R140 to R142) -/

section
variable {rd rs1 rs2 : Reg} {imm : BitVec 12} {s : State}

theorem exec_setvl_enabled (h : statusEV s.core.status = true) : exec (.setvl rd rs1 imm) s =
    finishReg rd (minWord (s.core.xRead rs1) s.core.vlmax) (s.onCore (Proc.setVl (s.core.xRead rs1))) := by
  simp only [exec, execSetvl, h, Bool.true_eq_false, if_false, onCore_core, setVl_vl]

theorem exec_setvl_disabled (h : statusEV s.core.status = false) :
    exec (.setvl rd rs1 imm) s = finish (.fault trapVectorDisabled) s := if_pos h

theorem exec_vcfg_enabled (h : statusEV s.core.status = true) : exec (.vcfg rs1 rs2 rd) s =
    .next (advance s.core.pcNext (s.onCore (Proc.vcfg (s.core.xRead rs1) (s.core.xRead rs2)))) := by
  simp only [exec, execVcfg, h, Bool.true_eq_false, if_false, finish_next_eq]

theorem exec_vcfg_disabled (h : statusEV s.core.status = false) :
    exec (.vcfg rs1 rs2 rd) s = finish (.fault trapVectorDisabled) s := if_pos h

end

/-- Settles O30: the value stored in `vl` is also the result. -/
theorem setVectorLength : Obligations.SetVectorLength := by
  refine ⟨fun _ hw => decodeWord_of_row rfl hw rfl,
    fun rd rs1 imm s => ⟨fun hev => ?enabled, fun hev het => ?disabled⟩⟩
  case enabled =>
    exact ⟨_, (exec_setvl_enabled hev).trans (finishReg_eq_advance ..), minWord_toNat _ _, advance_writesX _ rd _ rfl,
      rfl, rfl, fun _ => rfl⟩
  case disabled => exact takesTrap_of_finish_fault_self (exec_setvl_disabled hev) (by decide) het

/-- Settles O31: with the use counts stored, `vlmax` and `vl` are those of `RecomputeVlmax`. -/
theorem vectorConfigure : Obligations.VectorConfigure := by
  refine ⟨fun _ hw => decodeWord_of_row rfl hw rfl,
    fun rs1 rs2 rd s => ⟨fun hev => ?enabled, fun hev het => ?disabled⟩⟩
  case enabled =>
    exact ⟨_, exec_vcfg_enabled hev, rfl, rfl, recomputeVlmax_vlmax_toNat _, recomputeVlmax_vl_toNat _,
      advance_keepsX _ rfl, rfl, rfl, fun _ => rfl⟩
  case disabled => exact takesTrap_of_finish_fault_self (exec_vcfg_disabled hev) (by decide) het

/-! ## User mode and the control state (R208 to R210, R256) -/

/-- What an instruction of user mode may write without a trap: outside the integer registers, the pc and the vector
lengths, the processor state is kept, and so are the lanes and what construction fixed. -/
def keepsControl (s t : State) : Prop :=
  t.core = { s.core with x := t.core.x, pc := t.core.pc, nxprUse := t.core.nxprUse, nfprUse := t.core.nfprUse,
                         vlmax := t.core.vlmax, vl := t.core.vl } ∧
    t.lanes = s.lanes ∧ t.build = s.build ∧ t.memSize = s.memSize

/-- `t` is `s` just after some trap was taken, which needs traps enabled. -/
def trapTaken (s t : State) : Prop :=
  statusET s.core.status = true ∧ ∃ code bad, trapEntered code bad s t ∧ keepsMachine s t

theorem trapTaken_of_finish_fault {code : Nat} {a : Word} {s t : State}
    (h : finish (.fault code) { s with lastFault := a } = .next t) : trapTaken s t := by
  obtain ⟨hc, het, _⟩ := deliverTrap_next (s := cleared { s with lastFault := a }) h
  obtain ⟨t', hnext, hentered, _, _, hkept⟩ := takesTrap_of_finish_fault h.symm hc het
  cases hnext
  exact ⟨het, code, a, hentered, hkept⟩

theorem trapTaken_of_finish_fault_self {code : Nat} {s t : State} (h : finish (.fault code) s = .next t) :
    trapTaken s t :=
  trapTaken_of_finish_fault (a := s.lastFault) h

/-- In user mode an instruction other than a halt keeps the control state or takes a trap. -/
theorem exec_user_cases {i : Instr} {s t : State} (hs : statusS s.core.status = false) (hi : i ≠ .halt)
    (h : exec i s = .next t) : keepsControl s t ∨ trapTaken s t := by
  cases i with
  | addi | add | sub | bne | jal | stop =>
    cases h
    exact .inl ⟨rfl, rfl, rfl, rfl⟩
  | lw rd rs1 imm =>
    obtain ⟨_, hr⟩ | ⟨c, _, hr⟩ | hr := memRead_cases s (s.core.dataAddr rs1 imm) 4
    · rw [exec_lw_of_ok hr] at h
      cases h
      exact .inl ⟨rfl, rfl, rfl, rfl⟩
    · exact .inr (trapTaken_of_finish_fault (exec_lw_of_fault hr ▸ h))
    · simp [exec, execLw, hr] at h
  | sw rs2 rs1 imm =>
    obtain ⟨_, hw⟩ | ⟨c, _, hw⟩ | hw := memWrite_cases s (s.core.dataAddr rs1 imm) 4 (low32 (s.core.xRead rs2))
    · rw [exec_sw_of_ok hw] at h
      cases h
      exact .inl ⟨rfl, rfl, rfl, rfl⟩
    · exact .inr (trapTaken_of_finish_fault (exec_sw_of_fault hw ▸ h))
    · simp [exec, execSw, hw] at h
  | ecall => exact .inr (trapTaken_of_finish_fault_self (code := trapSyscall) h)
  | eret | mtcr | mfcr =>
    rw [exec_privileged_user rfl hs] at h
    exact .inr (trapTaken_of_finish_fault_self h)
  | setvl rd rs1 imm =>
    cases hev : statusEV s.core.status with
    | false => exact .inr (trapTaken_of_finish_fault_self (exec_setvl_disabled hev ▸ h))
    | true =>
      rw [exec_setvl_enabled hev] at h
      cases h
      exact .inl ⟨rfl, rfl, rfl, rfl⟩
  | vcfg rs1 rs2 rd =>
    cases hev : statusEV s.core.status with
    | false => exact .inr (trapTaken_of_finish_fault_self (exec_vcfg_disabled hev ▸ h))
    | true =>
      rw [exec_vcfg_enabled hev] at h
      cases h
      exact .inl ⟨rfl, rfl, rfl, rfl⟩
  | halt => exact absurd rfl hi

/-- The status word of a trap entry from user mode: supervisor mode, traps disabled, and PS says user mode. -/
theorem trapStatus_of_user (b : Build) {st : IWord} (hs : statusS st = false) :
    statusS (maskStatus b (trapStatus st)) = true ∧ statusET (maskStatus b (trapStatus st)) = false ∧
      statusPS (maskStatus b (trapStatus st)) = false := by
  rw [statusS_maskStatus, statusET_maskStatus, statusPS_maskStatus]
  exact ⟨getLsbD_trapStatus st 5 (by decide), getLsbD_trapStatus st 0 (by decide),
    (getLsbD_trapStatus st 4 (by decide)).trans hs⟩

/-- Settles O55: what was kept without a trap is kept, and a trap writes only what it saves, the status and the pc. -/
theorem userModeCannotReachControlState : Obligations.UserModeCannotReachControlState := by
  intro i s t hs hi h
  obtain ⟨hcore, hlanes, hbuild, hsize⟩ | ⟨het, code, bad, hentered, hkept⟩ := exec_user_cases hs hi h
  · rw [hcore]
    exact ⟨⟨rfl, rfl, rfl, rfl, rfl, rfl, rfl, rfl, rfl, rfl, rfl, rfl, rfl, rfl, rfl, hlanes, hbuild, hsize⟩,
      .inl ⟨rfl, rfl, rfl, rfl⟩⟩
  · obtain ⟨hpc, hepc, _, _, hip, hstatus, hcore⟩ := hentered
    obtain ⟨hlanes, _, hsize, hbuild, _, _⟩ := hkept
    obtain ⟨hsup, hdisabled, hprev⟩ := trapStatus_of_user s.build hs
    rw [← hstatus] at hsup hdisabled hprev
    refine ⟨?_, .inr ⟨het, hsup, hdisabled, hprev, hepc, hpc⟩⟩
    rw [hcore]
    exact ⟨rfl, rfl, rfl, rfl, rfl, rfl, rfl, rfl, rfl, rfl, rfl, rfl, rfl, rfl, hip, hlanes, hbuild, hsize⟩

end Sys2Proof.Machine
end

section
/-! PROOFS, exceptions (60_exceptions.md). Which interrupt line a slot takes, what a raised line leaves of cause, when
the counter meets its compare value, and the state a delivered trap leaves, from which a trap return starts. -/

namespace Sys2Proof.Machine

/-! ## The line a slot takes (R260, R261) -/

theorem lowestSet_eq_some {v : BitVec 8} {k : Nat} (hk : k < 8) (hset : v.getLsbD k = true)
    (hlow : ∀ j < k, v.getLsbD j = false) : lowestSet v = some k := by
  rw [lowestSet, List.find?_range_eq_some]
  exact ⟨hset, List.mem_range.mpr hk, fun j hj => by rw [hlow j hj, Bool.not_false]⟩

theorem lowestSet_eq_none_iff (v : BitVec 8) : lowestSet v = none ↔ v = 0 := by
  rw [lowestSet, List.find?_range_eq_none]
  constructor
  · intro hclear
    apply BitVec.eq_of_getLsbD_eq
    intro i hi
    rw [BitVec.ofNat_eq_ofNat, BitVec.getLsbD_zero, ← Bool.not_eq_true']
    exact hclear i hi
  · rintro rfl i _
    rw [BitVec.ofNat_eq_ofNat, BitVec.getLsbD_zero, Bool.not_false]

theorem takenLine_of_enabled {status : IWord} (het : statusET status = true) (cause : IWord) :
    takenLine status cause = lowestSet (causeIP cause &&& statusIM status) := if_pos het

theorem takenLine_eq_none_iff (status cause : IWord) :
    takenLine status cause = none ↔ statusET status = false ∨ causeIP cause &&& statusIM status = 0 := by
  cases het : statusET status with
  | false => simp [takenLine, het]
  | true => simp [takenLine_of_enabled het, lowestSet_eq_none_iff]

theorem slotBody_of_takenLine (sys : System) {s : State} {k : Nat}
    (hk : takenLine s.core.status s.core.cause = some k) :
    slotBody sys s = deliverTrap (Config.intBase + k) s := by
  simp only [slotBody, hk]

/-- Settles O8: the lowest set bit is the line whose trap the slot delivers, and a line's trap code is in range. -/
theorem lowestEnabledInterruptTaken : Obligations.LowestEnabledInterruptTaken := by
  refine ⟨fun s b k hb het hk hset hlow => ?_, takenLine_eq_none_iff⟩
  have hline : takenLine s.core.status s.core.cause = some k :=
    (takenLine_of_enabled het _).trans (lowestSet_eq_some hk hset hlow)
  have hcode : 16 + k < Config.numTraps := Nat.add_lt_add_left hk 16
  obtain ⟨t, hstep, hentered, hx, _, hkept⟩ :=
    step_of_trap hb het hcode (slotBody_of_takenLine fixtureSystem hline) rfl ⟨rfl, rfl, rfl, rfl, rfl, rfl⟩
  exact ⟨t, hstep, hentered, hx, hkept⟩

/-! ## A line made pending (R262, R265) -/

theorem getLsbD_raiseLine_self {line : Nat} (hline : line < 8) (c : IWord) :
    (raiseLine line c).getLsbD (16 + line) = true := by
  have hlt : 16 + line < 32 := by omega
  simp [raiseLine, ← BitVec.twoPow_eq, BitVec.getLsbD_twoPow, -BitVec.getLsbD_eq_getElem, hlt]

theorem getLsbD_raiseLine_of_ne {line k : Nat} (hk : k ≠ 16 + line) (c : IWord) :
    (raiseLine line c).getLsbD k = c.getLsbD k := by
  simp [raiseLine, ← BitVec.twoPow_eq, BitVec.getLsbD_twoPow, -BitVec.getLsbD_eq_getElem, hk.symm]

theorem getLsbD_causeIP {line : Nat} (hline : line < 8) (c : IWord) :
    (causeIP c).getLsbD line = c.getLsbD (16 + line) := by
  rw [causeIP, BitVec.getLsbD_extractLsb', decide_eq_true hline, Bool.true_and]

/-- Settles O46: the line of the inter-processor interrupt is line 5, bit 21 of cause. -/
theorem ipiAndStart : Obligations.IpiAndStart := fun s =>
  ⟨⟨getLsbD_raiseLine_self (line := 5) (by decide) s.core.cause,
    fun _ hk => getLsbD_raiseLine_of_ne (line := 5) hk s.core.cause, rfl⟩, rfl⟩

/-! ## The counter and its compare value (R265) -/

theorem slotsToCompare_eq (count compare : IWord) :
    slotsToCompare count compare = (2 ^ 32 - 1 + (2 ^ 32 - count.toNat + compare.toNat)) % 2 ^ 32 + 1 := by
  have hone : (1 : IWord).toNat = 1 := rfl
  rw [slotsToCompare, BitVec.toNat_sub, BitVec.toNat_sub, hone, Nat.add_mod_mod]

/-- Stepping the counter on by `slotsToCompare` reaches the compare value. -/
theorem add_slotsToCompare (count compare : IWord) :
    (count.toNat + slotsToCompare count compare) % 2 ^ 32 = compare.toNat := by
  have hcount := count.isLt
  have hcompare := compare.isLt
  rw [slotsToCompare_eq]
  omega

/-- No smaller number of steps, other than none, does. -/
theorem slotsToCompare_le {count compare : IWord} {j : Nat} (hj : 1 ≤ j)
    (h : (count.toNat + j) % 2 ^ 32 = compare.toNat) : slotsToCompare count compare ≤ j := by
  have hcount := count.isLt
  rw [slotsToCompare_eq, ← h]
  omega

/-- The counter meets its compare value within `i` steps exactly when `slotsToCompare` is among them. -/
theorem slotsToCompare_le_iff (count compare : IWord) (i : Nat) :
    slotsToCompare count compare ≤ i ↔
      ∃ j, 1 ≤ j ∧ j ≤ i ∧ (count.toNat + j) % 2 ^ 32 = compare.toNat := by
  constructor
  · intro hi
    exact ⟨_, Nat.le_add_left 1 _, hi, add_slotsToCompare count compare⟩
  · rintro ⟨j, hj, hji, hmeets⟩
    exact (slotsToCompare_le hj hmeets).trans hji

theorem countUpdate_cause_of_met {p : Proc} {i : Nat} (h : slotsToCompare p.count p.compare ≤ i) :
    (p.countUpdate i).cause = raiseLine Config.irqTimer p.cause := if_pos h

theorem countUpdate_cause_of_not_met {p : Proc} {i : Nat} (h : ¬ slotsToCompare p.count p.compare ≤ i) :
    (p.countUpdate i).cause = p.cause := if_neg h

theorem getLsbD_countUpdate_cause_of_ne (p : Proc) (i : Nat) {k : Nat} (hk : k ≠ 16 + Config.irqTimer) :
    (p.countUpdate i).cause.getLsbD k = p.cause.getLsbD k := by
  by_cases hmet : slotsToCompare p.count p.compare ≤ i
  · rw [countUpdate_cause_of_met hmet, getLsbD_raiseLine_of_ne hk]
  · rw [countUpdate_cause_of_not_met hmet]

theorem timer_pending_countUpdate_iff (p : Proc) (i : Nat) :
    (causeIP (p.countUpdate i).cause).getLsbD Config.irqTimer = true ↔
      (causeIP p.cause).getLsbD Config.irqTimer = true ∨ slotsToCompare p.count p.compare ≤ i := by
  by_cases hmet : slotsToCompare p.count p.compare ≤ i
  · have hraised : (causeIP (p.countUpdate i).cause).getLsbD Config.irqTimer = true := by
      rw [countUpdate_cause_of_met hmet, getLsbD_causeIP (by decide), getLsbD_raiseLine_self (by decide)]
    exact iff_of_true hraised (.inr hmet)
  · rw [countUpdate_cause_of_not_met hmet, or_iff_left hmet]

/-- Settles O16: the number of steps the update compares with is the first at which the counter meets compare. -/
theorem timerSetWhenCompareCrossed : Obligations.TimerSetWhenCompareCrossed := by
  intro i p
  refine ⟨?count, ?timer, fun k hk => getLsbD_countUpdate_cause_of_ne p i hk, rfl⟩
  case count => rw [countUpdate_count, BitVec.toNat_add, BitVec.toNat_ofNat, Nat.add_mod_mod]
  case timer => exact (timer_pending_countUpdate_iff p i).trans (or_congr_right (slotsToCompare_le_iff _ _ i))

/-! ## Taking a trap (R251, R255, R256) -/

theorem deliverTrap_out_of_range {code : Nat} (hc : Config.numTraps ≤ code) (s : State) :
    deliverTrap code s = .fault (.badTrapCode s.core.coreId code) := if_pos hc

theorem statusIM_trapStatus (st : IWord) : statusIM (trapStatus st) = statusIM st := by
  apply BitVec.eq_of_getLsbD_eq
  intro i hi
  rw [statusIM, statusIM, BitVec.getLsbD_extractLsb', BitVec.getLsbD_extractLsb', getLsbD_trapStatus _ _ (by omega),
    if_neg (by omega), if_neg (by omega), if_neg (by omega)]

/-- A trap entry sets S to 1, PS to the old S and ET to 0 and keeps every other field (R256). -/
theorem decodeStatus_trapStatus (st : IWord) :
    decodeStatus (trapStatus st) = { decodeStatus st with ps := statusS st, s := true, et := false } := by
  have hbit (k : Nat) (hk : k < 32) := getLsbD_trapStatus st k hk
  simp [decodeStatus, statusIM_trapStatus, statusET, statusEF, statusEV, statusEC, statusPS, statusS, statusU64,
    statusS64, statusVM, hbit, -BitVec.getLsbD_eq_getElem]

/-- The status a trap entry leaves, as `StatusWrite` stores it. -/
theorem decodeStatus_enterTrap (code : Nat) {s : State} (hmask : maskStatus s.build s.core.status = s.core.status) :
    decodeStatus (enterTrap code s).core.status =
      { decodeStatus s.core.status with ps := statusS s.core.status, s := true, et := false } := by
  conv_rhs => rw [← hmask]
  simp only [enterTrap_core, decodeStatus_maskStatus, decodeStatus_trapStatus, statusS_maskStatus]

theorem enterTrap_port (code : Nat) (s : State) : (enterTrap code s).port =
    { vm := statusVM s.core.status, sup := true, notifies := s.port.notifies + 1, flushes := s.port.flushes + 1 } := by
  have hvm := congrArg StatusFields.vm (decodeStatus_trapStatus s.core.status)
  have hsup := congrArg StatusFields.s (decodeStatus_trapStatus s.core.status)
  simp only [decodeStatus] at hvm hsup
  rw [enterTrap, onCore_port, statusWrite_port, statusVM_maskStatus, statusS_maskStatus, hvm, hsup]

theorem emit_traceOut (s : State) (line : TraceLine) :
    (s.emit line).traceOut = if s.tracing then s.traceOut ++ [line] else s.traceOut :=
  apply_ite State.traceOut ..

/-- Settles O43: the two checks in their order, and otherwise the entry from the state with the trap's line emitted. -/
theorem trapDelivery : Obligations.TrapDelivery := by
  refine fun code s => ⟨fun hc => deliverTrap_out_of_range hc s, fun hc het => deliverTrap_disabled hc het,
    fun hc het hmask => ?_⟩
  obtain ⟨t, hnext, hentered, hx, hlast, hkept⟩ :=
    deliverTrap_trapEntered (u := s) hc rfl ⟨rfl, rfl, rfl, rfl, rfl, rfl⟩ het
  obtain ⟨_, _, rfl⟩ := deliverTrap_next hnext
  refine ⟨_, hnext, hentered, hx, ?cause, ?status, ?port, hlast, hkept, ?trace⟩
  case cause => rw [enterTrap_core, emit_core, trapCause]
  case status => rw [decodeStatus_enterTrap code (by simpa using hmask), emit_core]
  case port => rw [enterTrap_port, emit_core, emit_port]
  case trace => rw [enterTrap_traceOut, emit_traceOut]

/-- Settles O44: the three outcomes differ, and each has its own condition. -/
theorem fatalTrapsExactly : Obligations.FatalTrapsExactly := by
  intro code s
  have hrange : 24 ≤ code ↔ ¬ code < Config.numTraps := Nat.not_lt.symm
  have hlimit : code < 24 ↔ code < Config.numTraps := Iff.rfl
  rw [hrange, hlimit]
  obtain ⟨hc, h⟩ | ⟨hc, het, h⟩ | ⟨hc, het, h⟩ := deliverTrap_cases code s
  · simp [h, Nat.not_lt.mpr hc]
  · simp [h, hc, het]
  · simp [h, hc, het]

/-! ## Returning from a trap (R275) -/

theorem trapReturn_core (s : State) :
    (trapReturn s).core = { s.core with status := maskStatus s.build (returnStatus s.core.status) } := rfl

/-- A return straight after an entry takes S from PS, where the entry put it. -/
theorem decodeStatus_trapReturn_enterTrap (code : Nat) {s : State}
    (hmask : maskStatus s.build s.core.status = s.core.status) :
    decodeStatus (trapReturn (enterTrap code s)).core.status =
      { decodeStatus s.core.status with ps := statusS s.core.status, et := true } := by
  have hentry := decodeStatus_enterTrap code hmask
  have hps : statusPS (enterTrap code s).core.status = statusS s.core.status := congrArg StatusFields.ps hentry
  have hmasked :
      maskStatus (enterTrap code s).build (enterTrap code s).core.status = (enterTrap code s).core.status := by
    simp only [enterTrap_core, enterTrap_build, maskStatus_maskStatus]
  rw [decodeStatus_trapReturn hmasked, hentry, hps, decodeStatus]

/-- Settles O45: the return sets ET, which the delivery found set. -/
theorem trapThenReturnRestoresMode : Obligations.TrapThenReturnRestoresMode := by
  intro code s t h hmask
  obtain ⟨_, het, rfl⟩ := deliverTrap_next h
  refine ⟨?status, ?epc, ?cause⟩
  case status =>
    rw [decodeStatus_trapReturn_enterTrap code (by simpa using hmask), emit_core, decodeStatus, het]
  case epc =>
    rw [trapReturn_core, enterTrap_core, emit_core]
  case cause =>
    rw [trapReturn_core]

end Sys2Proof.Machine
end

section
/-! PROOFS, reset_and_hazards (70_reset_and_hazards.md). One reset of a processor state (R300) gives a core all zeros
and a lane its creation state again (42_vector_lanes.md R150, R153); the machine's reset does so to the core and to
every lane the multiplexer finds. -/

namespace Sys2Proof.Machine

theorem resetTo_eq_zero (b : Build) {p : Proc} (hindex : p.laneIndex = none) :
    p.resetTo b = Proc.zero p.coreId none := by
  rw [Proc.resetTo, hindex, resetStatus, maskStatus_zero]
  rfl

theorem resetTo_eq_laneCreated (b : Build) {p : Proc} {k : Nat} (hindex : p.laneIndex = some k) :
    p.resetTo b = laneCreated b p.coreId k := by
  rw [Proc.resetTo, hindex]
  rfl

/-- A reset changes no lane's place in the array. -/
theorem laneAt_resetAll (k : Nat) (s : State) : laneAt k (resetAll s) = (laneAt k s).map (Proc.resetTo s.build) := by
  cases hls : s.lanes with
  | none => simp [laneAt, hls]
  | some ls => simp [laneAt, hls]

/-- Settles O50: the core is reset as one with no lane index, each lane as one with its own. -/
theorem resetRestoresCreationState : Obligations.ResetRestoresCreationState := by
  refine fun s hcore => ⟨resetTo_eq_zero s.build hcore, resetAll_port s, rfl, fun k lane hlane hindex hcoreId => ?_⟩
  rw [laneAt_resetAll, hlane, Option.map_some, resetTo_eq_laneCreated s.build hindex, hcoreId]

/-- Settles O53: no byte of memory is written, no lane attached and no batch open, and the core is all zeros. -/
theorem resetMeetsInvariant : Obligations.ResetMeetsInvariant := by
  have hcore : State.reset.core.ok State.reset.build := ok_zero_status _ 0 none (maskStatus_zero _)
  refine ⟨?canonical, ?bounded, hcore, rfl, ?lanes, ?batch⟩
  case canonical => exact ⟨.nil, fun _ hc => nomatch hc⟩
  case bounded => exact fun _ hc => nomatch hc
  case lanes => exact fun _ hls => nomatch hls
  case batch => exact fun _ hb => nomatch hb

end Sys2Proof.Machine
end
